-- ==== Sys2Proof/Word.lean ====
section
/-! DEFINITION. The word types of the LPD8806 serial encoder: bytes, command words, response words.

`00_scope.md` R8 (a byte is an integer 0 to 255; bits are numbered from 0, the least significant),
`30_encoding.md` R80 (a command word has 64 bits, a response word 32). -/

namespace Sys2Proof

/-- A byte: a gamma entry, one of the three bytes of a pixel, a byte of a frame (R8). -/
abbrev Byte := BitVec 8

/-- A command word (R80): one 64-bit number with named bit fields and no byte order (R54). -/
abbrev Word := BitVec 64

/-- A response word (R94): `STATUS` in bits 31..24, `DATA` in bits 23..0. -/
abbrev RespWord := BitVec 32

end Sys2Proof
end

