-- ==== Sys2Proof/Syntax.lean ====
section
/-! DEFINITION. The eight commands of the block, one constructor for each row of
`spec/opcode_table.json` (`30_encoding.md` R82), and the names under which a word is rejected. -/

namespace Sys2Proof

/-- A command with its operand fields exactly as R81 lays them out; what a field denotes (a signed
index, a brightness) is said in `Machine/Operands.lean`. -/
inductive Instr where
  /-- INIT (R160), format I: `LEDCOUNT`, `DEV`. -/
  | init (ledcount dev : BitVec 16)
  /-- SETMB (R162), format B: `BR`. -/
  | setmb (br : BitVec 16)
  /-- UPDBR (R164), format B: `BR`. -/
  | updbr (br : BitVec 16)
  /-- SETPX (R124), format P: `IDX`, `R`, `G`, `B`, `A`. -/
  | setpx (idx : BitVec 24) (r g b a : Byte)
  /-- FILL (R126), format C: `R`, `G`, `B`, `A`. -/
  | fill (r g b a : Byte)
  /-- SETORD (R166), format O: `OR`, `OG`, `OB`, the byte positions of red, green and blue. -/
  | setord (rp gp bp : BitVec 2)
  /-- UPDATE (R144), format N: no operand. -/
  | update
  /-- WHEEL (R180), format W: `POS`. -/
  | wheel (pos : BitVec 16)
  deriving DecidableEq, Repr

/-- Why a command word is a reserved encoding (R91, R92). -/
inductive Reject where
  /-- R91: `OP` is 0x0 or 0x9 to 0xF. -/
  | reservedOpcode
  /-- R92 (a): an assigned opcode with a must-be-zero bit set. -/
  | mustBeZeroBitSet
  /-- R92 (b): SETORD with `OR`, `OG`, `OB` not a permutation of 0, 1, 2. -/
  | orderNotPermutation
  deriving DecidableEq, Repr

/-- A row of the opcode table: a word belongs to the row when its bits under `mask` are `pattern`. -/
structure OpcodeRow where
  mnemonic : String
  pattern  : Word
  mask     : Word
  deriving DecidableEq, Repr

end Sys2Proof
end

