-- ==== Sys2Proof/WellFormed.lean ====
section
/-! DEFINITION. Which terms of `Instr` are commands of the block.

Every field value of every command is legal but for SETORD, whose three fields must be a permutation
of 0, 1, 2 (`30_encoding.md` R86, R88, R90, R89). A brightness or an index out of range is a legal
command that raises an error (R84, R87), so it is well-formed. -/

namespace Sys2Proof

/-- {`OR`, `OG`, `OB`} = {0, 1, 2} (R89): no field is 3 and no two are equal. -/
def isPermutation (rp gp bp : BitVec 2) : Bool :=
  rp != 3 && gp != 3 && bp != 3 && rp != gp && rp != bp && gp != bp

/-- The well-formed commands. -/
def Instr.wf : Instr → Bool
  | .init _ _        => true
  | .setmb _         => true
  | .updbr _         => true
  | .setpx _ _ _ _ _ => true
  | .fill _ _ _ _    => true
  | .setord rp gp bp => isPermutation rp gp bp
  | .update          => true
  | .wheel _         => true

end Sys2Proof
end

