-- ==== Sys2Proof/Decode.lean ====
section
/-! DEFINITION. Command words to commands and back (`30_encoding.md`).

`decode` is total on 64-bit words and rejects by name (R83, R91, R92); `encode` is written from the
same table of formats (R81, R82). -/

namespace Sys2Proof

/-- `w[lo+len-1 : lo]` (R8). -/
def field (w : Word) (lo len : Nat) : BitVec len := w.extractLsb' lo len

/-- `OP = w[63:60]` (R81). -/
def opField (w : Word) : BitVec 4 := field w 60 4

/-- The `Z` bits from bit `lo` up to bit 59 are all zero (R85); above `lo` every format of R81 has
only `Z` bits below the opcode. -/
def zeroFrom (w : Word) (lo : Nat) : Bool := field w lo (60 - lo) == 0

/-- A word whose `Z` bits hold is the command given, one with a `Z` bit set is reserved (R85, R92). -/
def checkZero (w : Word) (lo : Nat) (i : Instr) : Except Reject Instr :=
  if zeroFrom w lo then .ok i else .error .mustBeZeroBitSet

/-- SETORD: the `Z` bits, then the permutation condition (R83, R92). -/
def decodeSetord (w : Word) : Except Reject Instr :=
  if zeroFrom w 6 then
    if isPermutation (field w 4 2) (field w 2 2) (field w 0 2) then
      .ok (.setord (field w 4 2) (field w 2 2) (field w 0 2))
    else .error .orderNotPermutation
  else .error .mustBeZeroBitSet

/-- R83: the opcode, then the `Z` bits of the format, then for SETORD the permutation condition. -/
def decode (w : Word) : Except Reject Instr :=
  match (opField w).toNat with
  | 1 => checkZero w 32 (.init (field w 16 16) (field w 0 16))
  | 2 => checkZero w 16 (.setmb (field w 0 16))
  | 3 => checkZero w 16 (.updbr (field w 0 16))
  | 4 => checkZero w 56 (.setpx (field w 32 24) (field w 24 8) (field w 16 8) (field w 8 8) (field w 0 8))
  | 5 => checkZero w 32 (.fill (field w 24 8) (field w 16 8) (field w 8 8) (field w 0 8))
  | 6 => decodeSetord w
  | 7 => checkZero w 0 .update
  | 8 => checkZero w 16 (.wheel (field w 0 16))
  | _ => .error .reservedOpcode

/-- The opcode of each command (R82). -/
def Instr.opcode : Instr → BitVec 4
  | .init _ _        => 0x1
  | .setmb _         => 0x2
  | .updbr _         => 0x3
  | .setpx _ _ _ _ _ => 0x4
  | .fill _ _ _ _    => 0x5
  | .setord _ _ _    => 0x6
  | .update          => 0x7
  | .wheel _         => 0x8

/-- Bits 59..0 of a command: the format of R81 with its `Z` bits zero, from the left. -/
def Instr.payload : Instr → BitVec 60
  | .init led dev      => (0 : BitVec 28) ++ led ++ dev
  | .setmb br          => (0 : BitVec 44) ++ br
  | .updbr br          => (0 : BitVec 44) ++ br
  | .setpx idx r g b a => (0 : BitVec 4) ++ idx ++ r ++ g ++ b ++ a
  | .fill r g b a      => (0 : BitVec 28) ++ r ++ g ++ b ++ a
  | .setord rp gp bp   => (0 : BitVec 54) ++ rp ++ gp ++ bp
  | .update            => (0 : BitVec 60)
  | .wheel pos         => (0 : BitVec 44) ++ pos

/-- The command word of a command (R81, R82). -/
def encode (i : Instr) : Word := i.opcode ++ i.payload

/-- `spec/opcode_table.json`, row by row: mnemonic, match, mask. -/
def opcodeRows : List OpcodeRow :=
  [⟨"INIT",   0x1000000000000000, 0xFFFFFFFF00000000⟩,
   ⟨"SETMB",  0x2000000000000000, 0xFFFFFFFFFFFF0000⟩,
   ⟨"UPDBR",  0x3000000000000000, 0xFFFFFFFFFFFF0000⟩,
   ⟨"SETPX",  0x4000000000000000, 0xFF00000000000000⟩,
   ⟨"FILL",   0x5000000000000000, 0xFFFFFFFF00000000⟩,
   ⟨"SETORD", 0x6000000000000000, 0xFFFFFFFFFFFFFFC0⟩,
   ⟨"UPDATE", 0x7000000000000000, 0xFFFFFFFFFFFFFFFF⟩,
   ⟨"WHEEL",  0x8000000000000000, 0xFFFFFFFFFFFF0000⟩]

/-- The command word that the table's bits stand for: every row has 64 bits, a single word, so the
table's numbering is R8's (bit 0 least significant) and no byte order enters (R54). -/
def tableWord (nbits w : Nat) : Word := BitVec.ofNat 64 (w % 2 ^ nbits)

/-- The command the decoder reads from a word given in the opcode table's numbering. -/
def decodeTableWord (nbits w : Nat) : Option Instr := (decode (tableWord nbits w)).toOption

end Sys2Proof
end

