-- ==== Sys2Proof/Config.lean ====
section
/-! DEFINITION. What one instance of the block fixes, and the free values of the external bus.

The block's own constants (the gamma table, the two trailer bytes, the bus mode) stand with the
operations that use them, under `Machine/`. Here stand the types that the external BusTransport
speaks in, and what the spec leaves to the environment: constants without a body, so that no proof
can see a value of theirs. The one parameter that is an argument of the model (R6) is a structure with
the spec's default. -/

namespace Sys2Proof

/-- The opaque value `BusOpen` returns and every `BusWrite` is given (R28, R200). The block never
looks inside it; the token only tells handles apart. -/
structure Handle where
  token : Nat
  deriving DecidableEq, Repr, Inhabited

/-- The configuration given to `BusOpen` (R201): mode, chip-select line, clock limit. -/
structure BusConfig where
  mode       : Nat
  chipSelect : Option Nat
  maxSpeedHz : Nat
  deriving DecidableEq, Repr, Inhabited

/-- The result of one `BusWrite` (R203): `ok`, or `err e` with `e` the 24-bit value the block passes
through without looking at it. `sent` is the environment's too and the block never sees it: how many
leading bytes of the frame had reached the strip when the write failed ("any prefix of the frame,
possibly empty, possibly all of it", `93_implementation_defined.md` U7; notes/assumptions/8.md). -/
inductive BusResult where
  | ok
  | err (e : BitVec 24) (sent : Nat)
  deriving DecidableEq, Repr, Inhabited

/-- What the environment does with one `BusWrite`: it returns with a result, or it never returns
("No cancellation or timeout semantics are defined", R203, U8). -/
inductive BusReply where
  | answer (r : BusResult)
  | never
  deriving DecidableEq, Repr, Inhabited

/-- The parameters of an instance that the model takes as an argument (R6). Those that INIT brings (`N`,
`DEVICE`) are operands of INIT; the one left is `BUS_MAXSPEED_HZ` (D26, U13), with its default. -/
structure Params where
  busMaxSpeedHz : Nat := 12000000
  deriving DecidableEq, Repr

/-- The free result of a `BusWrite` (R203, U10: "any value at every update, independent of state"),
by the number of free results drawn before it. -/
opaque Config.busResult : Nat → BusResult

/-- The free handle of a `BusOpen` (R28: "Opaque"; R200, D13: it always returns one), by its two
arguments and the number of `BusOpen` calls before it. -/
opaque Config.busHandle : BitVec 16 → BusConfig → Nat → Handle

end Sys2Proof
end

