-- ==== Sys2Proof/Machine/State.lean ====
section
/-! DEFINITION. The state of the block, its state after reset, and the reasons a step can stop.

The spec's state is R20's eight items and the observation `BUS` (R31). Of the eight, the gamma table
`G` is a constant ("a constant of the block, present from reset", R22, D27) and stands in
`Machine/Gamma.lean`; the seven that change are fields here. The first field holds the parameters of the
instance (R6, notes/assumptions/13.md). The last five fields are the MODEL's own
(notes/assumptions/1.md, 4.md, 5.md, 6.md): the words the host has still to present, the
responses given, the `BusOpen` calls made, the answers the environment has in store for coming bus
writes, and the count of free results drawn. No rule's outcome depends on the observations. -/

namespace Sys2Proof.Machine

/-- `PHASE` (R27): UNINIT from reset until the first INIT, READY afterwards. -/
inductive Phase where
  | uninit
  | ready
  deriving DecidableEq, Repr

/-- `ORDER` (R25): the byte position that holds red, green and blue, three 2-bit fields. -/
structure ChannelOrder where
  r : BitVec 2
  g : BitVec 2
  b : BitVec 2
  deriving DecidableEq, Repr

/-- A pixel entry `PB[i]` (R21): the bytes at byte positions 0, 1 and 2. -/
structure Pixel where
  p0 : Byte
  p1 : Byte
  p2 : Byte
  deriving DecidableEq, Repr

/-- A native value (R120): the bytes for the logical channels red, green, blue, before the channel
order places them. -/
structure Native where
  red   : Byte
  green : Byte
  blue  : Byte
  deriving DecidableEq, Repr

/-- A transaction of `BUS` (R31): the bytes handed over and the result. The handle that was passed
along with the bytes (R202) is kept too (notes/assumptions/5.md). -/
structure Transaction where
  handle : Handle
  bytes  : List Byte
  result : BusResult
  deriving DecidableEq, Repr

/-- A `BusOpen` call (R200): its two arguments and the handle it returned. -/
structure OpenCall where
  device : BitVec 16
  config : BusConfig
  handle : Handle
  deriving DecidableEq, Repr

/-- The three synchronous errors (R190). The offending index or brightness is not returned to the
host (R191, R192), so only `transportError` carries a value, the opaque `e` (R193). -/
inductive Error where
  | outOfRange
  | invalidArgument
  | transportError (e : BitVec 24)
  deriving DecidableEq, Repr

/-- The state of the block. -/
structure State where
  /-- The instance's parameters (R6, notes/assumptions/13.md): the model's argument, written by no command. -/
  params    : Params
  /-- `PHASE` (R27). -/
  phase     : Phase
  /-- `N`, the `ledCount` (R23). -/
  ledCount  : BitVec 16
  /-- `DEVICE` (R24). -/
  device    : BitVec 16
  /-- `ORDER` (R25). -/
  order     : ChannelOrder
  /-- `BRIGHT` (R26): the integer `q`, 0 to 16384, denoting `q / 16384`. -/
  bright    : BitVec 15
  /-- `PB` (R21): pixel 0 first. Empty while `PHASE = UNINIT`, when the buffer does not exist. -/
  pb        : List Pixel
  /-- `HANDLE` (R28). -/
  handle    : Handle
  /-- `BUS`, the observation (R31), oldest transaction first. -/
  bus       : List Transaction
  /-- Model's own: the command words the host has still to present, the next one first (R33, R80). -/
  pending   : List Word
  /-- Model's own observation: the response words given since reset, oldest first (R94). -/
  responses : List RespWord
  /-- Model's own observation: the `BusOpen` calls since reset, oldest first (R200). -/
  opens     : List OpenCall
  /-- Model's own: what the environment will do with the coming bus writes, the next one first (R203);
  a write for which nothing is listed draws a free result. -/
  replies   : List BusReply
  /-- Model's own: how many free bus results have been drawn (R203, U10). -/
  draws     : Nat
  deriving DecidableEq, Repr

/-- Why a step stops with a fault. -/
inductive Fault where
  /-- U8: the environment never returns from a `BusWrite`, so the command never completes and no later
  command runs. Raised by INIT, FILL, UPDBR and UPDATE through `doUpdate`, only where the list of
  coming replies says so. Safe: the machine stops where the block waits for ever. -/
  | busWriteNeverReturns
  deriving DecidableEq, Repr

/-- Why a command is refused: the spec assigns it no behaviour (R95, R198). -/
inductive Refusal where
  /-- An instruction without a meaning yet; no arm of `exec` uses it. Safe. -/
  | notModelled (mnemonic : String)
  /-- R91, R92, U3 to U5: the word presented is a reserved encoding. Raised by the step, and by SETORD
  on operands that no word decodes to. Safe. -/
  | reserved (why : Reject)
  /-- R198, U1: SETMB, UPDBR, SETPX, FILL, SETORD or UPDATE while `PHASE = UNINIT`. Safe. -/
  | beforeInit
  /-- R161 (c), U2: INIT while `PHASE = READY`. Safe. -/
  | initWhenReady
  deriving DecidableEq, Repr

/-- What a command or a step answers. -/
abbrev Answer := Host.Outcome State Fault Refusal

/-- R35, R220: UNINIT, order GRB, brightness 1.0, no buffer, empty `BUS`. `N`, `DEVICE` and `HANDLE` are
unspecified there and zero here (notes/assumptions/2.md); nothing is pending, nothing has been
answered or opened, no reply is in store and no free result has been drawn. The instance's parameters
are the argument (R6). -/
def State.resetWith (p : Params) : State where
  params    := p
  phase     := .uninit
  ledCount  := 0
  device    := 0
  order     := ⟨1, 0, 2⟩
  bright    := 16384
  pb        := []
  handle    := ⟨0⟩
  bus       := []
  pending   := []
  responses := []
  opens     := []
  replies   := []
  draws     := 0

/-- Reset of the instance with the parameters at their defaults (R6: `BUS_MAXSPEED_HZ` 12 000 000). -/
def State.reset : State := State.resetWith {}

end Sys2Proof.Machine
end

