-- ==== Sys2Proof/Machine/Flags.lean ====
section
/-! DEFINITION. Status: the block has no flags, condition codes or sticky error bits (`10_state.md` R32);
what a command reports is its response word and nothing else (`30_encoding.md` R94, `60_exceptions.md`
R194). -/

namespace Sys2Proof.Machine

/-- How a command ends: `OK` with response data, or one of the errors. -/
abbrev Ending := Except Error (BitVec 24)

/-- `STATUS` (R94, R194): 0 OK, 1 OutOfRange, 2 InvalidArgument, 3 TransportError. -/
def statusOf : Ending → BitVec 8
  | .ok _                       => 0
  | .error .outOfRange          => 1
  | .error .invalidArgument     => 2
  | .error (.transportError _)  => 3

/-- `DATA` (R94): the data of an `OK`, the opaque value of a TransportError, zero otherwise. -/
def dataOf : Ending → BitVec 24
  | .ok d                       => d
  | .error .outOfRange          => 0
  | .error .invalidArgument     => 0
  | .error (.transportError e)  => e

/-- The response word (R94): `STATUS` in bits 31..24, `DATA` in bits 23..0. -/
def responseWord (en : Ending) : RespWord := statusOf en ++ dataOf en

/-- How a command that ends in an update ends (R144): `OK` with data zero, or the TransportError with
the value the bus returned. -/
def endingOfBus : BusResult → Ending
  | .ok      => .ok 0
  | .err e _ => .error (.transportError e)

end Sys2Proof.Machine
end

