-- ==== Sys2Proof/Machine/Gamma.lean ====
section
/-! DEFINITION. The gamma table `G` (`40_gamma.md`): a constant of 256 bytes, valid from reset (R22, R114, D27).

The rows are R112's, in hexadecimal, sixteen entries a row. -/

namespace Sys2Proof.Machine

def gammaRow0 : List Byte :=
  [0x80, 0x80, 0x80, 0x80, 0x80, 0x80, 0x80, 0x80, 0x80, 0x80, 0x80, 0x80, 0x80, 0x80, 0x80, 0x80]

def gammaRow1 : List Byte :=
  [0x80, 0x80, 0x80, 0x80, 0x80, 0x80, 0x80, 0x80, 0x80, 0x80, 0x80, 0x80, 0x81, 0x81, 0x81, 0x81]

def gammaRow2 : List Byte :=
  [0x81, 0x81, 0x81, 0x81, 0x81, 0x81, 0x81, 0x81, 0x81, 0x81, 0x81, 0x81, 0x82, 0x82, 0x82, 0x82]

def gammaRow3 : List Byte :=
  [0x82, 0x82, 0x82, 0x82, 0x82, 0x83, 0x83, 0x83, 0x83, 0x83, 0x83, 0x83, 0x83, 0x84, 0x84, 0x84]

def gammaRow4 : List Byte :=
  [0x84, 0x84, 0x84, 0x84, 0x85, 0x85, 0x85, 0x85, 0x85, 0x86, 0x86, 0x86, 0x86, 0x86, 0x87, 0x87]

def gammaRow5 : List Byte :=
  [0x87, 0x87, 0x87, 0x88, 0x88, 0x88, 0x88, 0x89, 0x89, 0x89, 0x89, 0x8A, 0x8A, 0x8A, 0x8A, 0x8B]

def gammaRow6 : List Byte :=
  [0x8B, 0x8B, 0x8C, 0x8C, 0x8C, 0x8D, 0x8D, 0x8D, 0x8D, 0x8E, 0x8E, 0x8E, 0x8F, 0x8F, 0x90, 0x90]

def gammaRow7 : List Byte :=
  [0x90, 0x91, 0x91, 0x91, 0x92, 0x92, 0x92, 0x93, 0x93, 0x94, 0x94, 0x95, 0x95, 0x95, 0x96, 0x96]

def gammaRow8 : List Byte :=
  [0x97, 0x97, 0x98, 0x98, 0x98, 0x99, 0x99, 0x9A, 0x9A, 0x9B, 0x9B, 0x9C, 0x9C, 0x9D, 0x9D, 0x9E]

def gammaRow9 : List Byte :=
  [0x9E, 0x9F, 0xA0, 0xA0, 0xA1, 0xA1, 0xA2, 0xA2, 0xA3, 0xA3, 0xA4, 0xA5, 0xA5, 0xA6, 0xA6, 0xA7]

def gammaRowA : List Byte :=
  [0xA8, 0xA8, 0xA9, 0xA9, 0xAA, 0xAB, 0xAB, 0xAC, 0xAD, 0xAD, 0xAE, 0xAF, 0xAF, 0xB0, 0xB1, 0xB2]

def gammaRowB : List Byte :=
  [0xB2, 0xB3, 0xB4, 0xB4, 0xB5, 0xB6, 0xB7, 0xB7, 0xB8, 0xB9, 0xBA, 0xBA, 0xBB, 0xBC, 0xBD, 0xBE]

def gammaRowC : List Byte :=
  [0xBE, 0xBF, 0xC0, 0xC1, 0xC2, 0xC3, 0xC3, 0xC4, 0xC5, 0xC6, 0xC7, 0xC8, 0xC9, 0xCA, 0xCA, 0xCB]

def gammaRowD : List Byte :=
  [0xCC, 0xCD, 0xCE, 0xCF, 0xD0, 0xD1, 0xD2, 0xD3, 0xD4, 0xD5, 0xD6, 0xD7, 0xD8, 0xD9, 0xDA, 0xDB]

def gammaRowE : List Byte :=
  [0xDC, 0xDD, 0xDE, 0xDF, 0xE0, 0xE1, 0xE2, 0xE3, 0xE4, 0xE5, 0xE6, 0xE8, 0xE9, 0xEA, 0xEB, 0xEC]

def gammaRowF : List Byte :=
  [0xED, 0xEE, 0xEF, 0xF1, 0xF2, 0xF3, 0xF4, 0xF5, 0xF6, 0xF8, 0xF9, 0xFA, 0xFB, 0xFD, 0xFE, 0xFF]

/-- R112: all 256 entries, index 0 first. -/
def gammaTable : List Byte :=
  gammaRow0 ++ gammaRow1 ++ gammaRow2 ++ gammaRow3 ++ gammaRow4 ++ gammaRow5 ++ gammaRow6 ++ gammaRow7 ++
  gammaRow8 ++ gammaRow9 ++ gammaRowA ++ gammaRowB ++ gammaRowC ++ gammaRowD ++ gammaRowE ++ gammaRowF

/-- `G[i]` (R9, R51): every index 0 to 255 is legal and a read has no side effect. The table has 256
entries, so the default is never read (`gammaTable_length`). -/
def gamma (i : BitVec 8) : Byte := gammaTable.getD i.toNat 0x80

/-- `GammaIndex(c, a) = (c * a * BRIGHT) div 4177920` (R122), with 4177920 = 255 * 16384. For the values
`BRIGHT` can have the quotient is at most 255, so it is an index of `G` and nothing is cut off. -/
def gammaIndex (c a : Byte) (bright : BitVec 15) : BitVec 8 :=
  BitVec.ofNat 8 (c.toNat * a.toNat * bright.toNat / 4177920)

/-- The native value of a colour (R123, R126): each channel's gamma entry at the index that channel,
alpha and the stored brightness give. -/
def nativeOf (r g b a : Byte) (bright : BitVec 15) : Native where
  red   := gamma (gammaIndex r a bright)
  green := gamma (gammaIndex g a bright)
  blue  := gamma (gammaIndex b a bright)

end Sys2Proof.Machine
end

