-- ==== Sys2Proof/Machine/Operands.lean ====
section
/-! DEFINITION. What the operand fields denote (`30_encoding.md` R84 to R90, `00_scope.md` R8). -/

namespace Sys2Proof.Machine

/-- `val8(n) = n / 255` (R8): the rational in [0,1] that a colour field denotes (R86). -/
def val8 (n : Byte) : ℚ := (n.toNat : ℚ) / 255

/-- `idx = sext_24(IDX)` (R84). -/
def pixelIndex (idx : BitVec 24) : Int := idx.toInt

/-- `q = sext_16(BR)` (R87): the brightness operand in units of 1/16384. -/
def brightOperand (br : BitVec 16) : Int := br.toInt

/-- `valQ(b) = sext_16(b) / 16384` (R8): the rational in [-2, 2) that a brightness field denotes. -/
def valQ (br : BitVec 16) : ℚ := (brightOperand br : ℚ) / 16384

/-- A brightness operand is valid when `0 <= q <= 16384`, which is [0,1] (R87). -/
def brightValid (q : Int) : Bool := decide (0 ≤ q) && decide (q ≤ 16384)

/-- A valid `q` as `BRIGHT` stores it (R26): the integer itself, in 15 bits. -/
def brightStored (q : Int) : BitVec 15 := BitVec.ofInt 15 q

/-- `pos = sext_16(POS)` (R90). -/
def wheelOperand (pos : BitVec 16) : Int := pos.toInt

/-- An index is in range when `0 <= idx < N` (R120, R191). -/
def indexInRange (idx : Int) (n : BitVec 16) : Bool := decide (0 ≤ idx) && decide (idx < n.toNat)

end Sys2Proof.Machine
end

