-- ==== Sys2Proof/Machine/Ops.lean ====
section
/-! DEFINITION. The named operations the commands share: updates of the state, the pixel buffer, the
encoder, the external bus, the end of a command, and the fetch of the next command word. -/

namespace Sys2Proof.Machine

/-! ### Updates of the state -/

/-- The control registers and the buffer that INIT's construction writes (R160). -/
def State.construct (n dev : BitVec 16) (px : List Pixel) (s : State) : State :=
  { s with ledCount := n, device := dev, pb := px }

/-- `PB` replaced. -/
def State.setPixels (px : List Pixel) (s : State) : State := { s with pb := px }

/-- `ORDER <- o`. -/
def State.setOrder (o : ChannelOrder) (s : State) : State := { s with order := o }

/-- `BRIGHT <- q`. -/
def State.setBright (q : BitVec 15) (s : State) : State := { s with bright := q }

/-- `PHASE <- READY`. -/
def State.makeReady (s : State) : State := { s with phase := .ready }

/-- `HANDLE <- h`, the call logged. -/
def State.logOpen (c : OpenCall) (s : State) : State :=
  { s with handle := c.handle, opens := s.opens ++ [c] }

/-- One transaction appended to `BUS`, and the environment's reply used up: the first one listed, or,
where none is, one free result. -/
def State.logWrite (t : Transaction) (s : State) : State :=
  { s with bus := s.bus ++ [t], replies := s.replies.tail,
           draws := if s.replies.isEmpty then s.draws + 1 else s.draws }

/-- One response word given to the host. -/
def State.logResponse (w : RespWord) (s : State) : State := { s with responses := s.responses ++ [w] }

/-- The words the host has still to present. -/
def State.setPending (ws : List Word) (s : State) : State := { s with pending := ws }

/-! ### Pixels and the pixel buffer -/

/-- The neutral pixel (R21): all channels 0x80. -/
def neutralPixel : Pixel := ⟨0x80, 0x80, 0x80⟩

/-- The bytes of a pixel in position order (R54). -/
def Pixel.bytes (px : Pixel) : List Byte := [px.p0, px.p1, px.p2]

/-- The byte at byte position `p`; there is none above 2. -/
def Pixel.byteAt (px : Pixel) (p : Nat) : Option Byte := px.bytes[p]?

/-- `PB[i][p] <- v` on one pixel; position 3 does not exist and is never stored in `ORDER` (R25). -/
def Pixel.put (p : BitVec 2) (v : Byte) (px : Pixel) : Pixel :=
  match p.toNat with
  | 0 => { px with p0 := v }
  | 1 => { px with p1 := v }
  | 2 => { px with p2 := v }
  | _ => px

/-- The three writes of `PB_SET` (R120): each channel's byte to the position `ORDER` gives it. -/
def Pixel.putNative (o : ChannelOrder) (v : Native) (px : Pixel) : Pixel :=
  ((px.put o.r v.red).put o.g v.green).put o.b v.blue

/-- The linear address of byte position 0 of pixel `i` (R52). -/
def pixelAddr (i : Nat) : Nat := 3 * i

/-- `MemRead(addr, 1)` (R9, R52): the byte at linear address `3*i + p`, which is `PB[i][p]`; nothing
outside the buffer. -/
def State.readByte (s : State) (addr : Nat) : Option Byte :=
  s.pb[addr / 3]?.bind fun px => px.byteAt (addr % 3)

/-- `PB_SET(i, v)` (R120): `OutOfRange` and nothing written when `i < 0` or `i >= N`. -/
def pbSet (i : Int) (v : Native) (s : State) : Except Error State :=
  if indexInRange i s.ledCount then
    .ok (s.setPixels (s.pb.modify i.toNat (Pixel.putNative s.order v)))
  else .error .outOfRange

/-- `PB_FILL(v)` (R121): `PB_SET` at every index of the buffer. -/
def pbFill (v : Native) (s : State) : State := s.setPixels (s.pb.map (Pixel.putNative s.order v))

/-- `NWRITE(i, R, G, B, A)` (R123), the one way a colour reaches the buffer. -/
def nwrite (i : Int) (r g b a : Byte) (s : State) : Except Error State :=
  pbSet i (nativeOf r g b a s.bright) s

/-- `(byte * q) >> 14` (R164): the whole stored byte, bit 7 included. -/
def rescaleByte (q : Nat) (v : Byte) : Byte := BitVec.ofNat 8 ((v.toNat * q) >>> 14)

/-- The rescale of one pixel. -/
def Pixel.rescale (q : Nat) (px : Pixel) : Pixel :=
  ⟨rescaleByte q px.p0, rescaleByte q px.p1, rescaleByte q px.p2⟩

/-- The rescale of the whole buffer (R164). -/
def pbRescale (q : Nat) (s : State) : State := s.setPixels (s.pb.map (Pixel.rescale q))

/-! ### The encoder -/

/-- The trailer (R140, R143): the latch marker and the minimal reset pulse, whatever `N` is. -/
def trailer : List Byte := [0x00, 0x00]

/-- `Encode()` (R140): the pixel bytes in buffer order, unchanged (R141), then the trailer. It reads the
buffer and writes nothing (R142). The buffer has `N` entries (R29 item 1, `State.Inv`), so this is the
rule's loop over `0..N-1`. -/
def encodeFrame (px : List Pixel) : List Byte := px.flatMap Pixel.bytes ++ trailer

/-! ### The end of a command -/

/-- A command ends with a response and the state its earlier steps left (R80, R196). Nothing is saved
and nothing is switched: there is no handler, no vector and no mode (R196), and so no return (R199). -/
def endCommand (en : Ending) (s : State) : Answer := .next (s.logResponse (responseWord en))

/-- `raise E(info)` (R9, R196): taking an error. -/
def raise (e : Error) (s : State) : Answer := endCommand (.error e) s

/-- `respond OK(data)` (R9). -/
def respondOk (data : BitVec 24) (s : State) : Answer := endCommand (.ok data) s

/-- The phase check of R198: every command but INIT and WHEEL has its meaning in READY only. -/
def whenReady (s : State) (k : Answer) : Answer :=
  match s.phase with
  | .ready  => k
  | .uninit => .refused .beforeInit

/-! ### The external bus -/

/-- R201: "mode 0, no chip-select line, max clock speed constant", the last a parameter (R6). -/
def busConfig (p : Params) : BusConfig := ⟨0, none, p.busMaxSpeedHz⟩

/-- The handle the environment returns to a `BusOpen` of this device now (R28, R200): a free value. -/
def State.nextHandle (dev : BitVec 16) (s : State) : Handle :=
  Config.busHandle dev (busConfig s.params) s.opens.length

/-- `HANDLE <- BusOpen(DEVICE, {mode 0, no chip select, BUS_MAXSPEED_HZ})` (R160, R200): it always
returns a handle (D13). -/
def busOpen (s : State) : State := s.logOpen ⟨s.device, busConfig s.params, s.nextHandle s.device⟩

/-- What the environment does with the next `BusWrite` (R203): the first reply listed, and a free
result where none is. -/
def State.nextReply (s : State) : BusReply :=
  match s.replies with
  | r :: _ => r
  | []     => .answer (Config.busResult s.draws)

/-- The bytes of a transaction that reached the strip (R203, U7): all of them on `ok`, and after an
`err` the prefix of the frame that the environment chose. -/
def Transaction.received (t : Transaction) : List Byte :=
  match t.result with
  | .ok         => t.bytes
  | .err _ sent => t.bytes.take sent

/-- The state after the update's transaction is in `BUS` with result `r` (R144): one frame, of the
buffer as it stands, under the stored handle. -/
def sendFrame (r : BusResult) (s : State) : State := s.logWrite ⟨s.handle, encodeFrame s.pb, r⟩

/-- `DoUpdate()` and the end of the command that ran it (R144): in every command that updates it is the
last step before the response. On `err e` the command raises TransportError with the state kept as it
is (R193, R196); a write that never returns leaves the command unfinished for ever (U8). -/
def doUpdate (s : State) : Answer :=
  match s.nextReply with
  | .answer r => endCommand (endingOfBus r) (sendFrame r s)
  | .never    => .fault .busWriteNeverReturns

/-! ### The command port -/

/-- The next command word the host presents, and the state with it taken from the port (R80, R33). -/
def fetch (s : State) : Option (Word × State) :=
  match s.pending with
  | []      => none
  | w :: ws => some (w, s.setPending ws)

/-- The host presents `w` before everything that is pending. -/
def State.present (w : Word) (s : State) : State := s.setPending (w :: s.pending)

/-- The block with no command presented: it "executes nothing until the host presents a command"
(R221). -/
def idle (s : State) : Answer := .next s

end Sys2Proof.Machine
end

