-- ==== Sys2Proof/Machine/Control.lean ====
section
/-! DEFINITION. Control commands: INIT, SETMB, UPDBR, SETORD (`43_control.md`). -/

namespace Sys2Proof.Machine

/-- INIT (R160): the registers and the neutral buffer, the bus opened, READY, then one update. `ORDER`
and `BRIGHT` are not written. A second INIT has no meaning (R161 (c)). -/
def execInit (ledcount dev : BitVec 16) (s : State) : Answer :=
  match s.phase with
  | .uninit =>
    doUpdate (busOpen (s.construct ledcount dev (List.replicate ledcount.toNat neutralPixel))).makeReady
  | .ready => .refused .initWhenReady

/-- SETMB (R162): a valid brightness is stored for later colour writes; the buffer is not rewritten. -/
def execSetmb (br : BitVec 16) (s : State) : Answer :=
  whenReady s <|
    if brightValid (brightOperand br) then
      respondOk 0 (s.setBright (brightStored (brightOperand br)))
    else raise .invalidArgument s

/-- UPDBR (R164): a valid brightness is stored and every buffer byte rescaled, then one update. -/
def execUpdbr (br : BitVec 16) (s : State) : Answer :=
  whenReady s <|
    if brightValid (brightOperand br) then
      doUpdate (pbRescale (brightOperand br).toNat (s.setBright (brightStored (brightOperand br))))
    else raise .invalidArgument s

/-- SETORD (R166): the order is replaced, the buffer is not re-encoded. Operands that are not a
permutation are a reserved encoding (R92), refused before the phase is looked at (R197); no word decodes
to them. -/
def execSetord (rp gp bp : BitVec 2) (s : State) : Answer :=
  if isPermutation rp gp bp then
    whenReady s <| respondOk 0 (s.setOrder ⟨rp, gp, bp⟩)
  else .refused (.reserved .orderNotPermutation)

end Sys2Proof.Machine
end

