-- ==== Sys2Proof/Machine/EncodeUpdate.lean ====
section
/-! DEFINITION. The update: UPDATE (`42_encode_update.md`). -/

namespace Sys2Proof.Machine

/-- UPDATE (R144): one frame of the buffer as it stands. -/
def execUpdate (s : State) : Answer := whenReady s (doUpdate s)

end Sys2Proof.Machine
end

