-- ==== Sys2Proof/Machine/PixelWrite.lean ====
section
/-! DEFINITION. Pixel buffer writes: SETPX and FILL (`41_pixel_write.md`). -/

namespace Sys2Proof.Machine

/-- SETPX (R124): one pixel from a normalised colour; `OutOfRange` before anything is written. It does
not update. -/
def execSetpx (idx : BitVec 24) (r g b a : Byte) (s : State) : Answer :=
  whenReady s <|
    match nwrite (pixelIndex idx) r g b a s with
    | .ok s'   => respondOk 0 s'
    | .error e => raise e s

/-- FILL (R126): every pixel from one normalised colour, then one update. -/
def execFill (r g b a : Byte) (s : State) : Answer :=
  whenReady s <| doUpdate (pbFill (nativeOf r g b a s.bright) s)

end Sys2Proof.Machine
end

