-- ==== Sys2Proof/Machine/Wheel.lean ====
section
/-! DEFINITION. The colour wheel: WHEEL (`44_wheel.md`). -/

namespace Sys2Proof.Machine

/-- The position clamped to 0..384 (R180). -/
def wheelClamp (pos : Int) : Nat :=
  if pos < 0 then 0 else if 384 < pos then 384 else pos.toNat

/-- The colour at a clamped position (R180): red, green, blue, each 0..127. -/
def wheelColor (p : Nat) : Nat × Nat × Nat :=
  let k := p % 128
  if p ≤ 127 then (127 - k, k, 0)
  else if p ≤ 255 then (0, 127 - k, k)
  else if p ≤ 383 then (k, 0, 127 - k)
  else (127, 0, 0)

/-- The response data of a wheel colour (R94, R180): `r * 65536 + g * 256 + b`. -/
def wheelData (c : Nat × Nat × Nat) : BitVec 24 :=
  BitVec.ofNat 24 (c.1 * 65536 + c.2.1 * 256 + c.2.2)

/-- WHEEL (R180): a pure function of its operand, in either phase (R198, D28). -/
def execWheel (pos : BitVec 16) (s : State) : Answer :=
  respondOk (wheelData (wheelColor (wheelClamp (wheelOperand pos)))) s

end Sys2Proof.Machine
end

