-- ==== Sys2Proof/Machine/Dispatch.lean ====
section
/-! DEFINITION. The meaning of each command: one arm for each constructor of `Instr`. -/

namespace Sys2Proof.Machine

def exec (i : Instr) (s : State) : Host.Outcome State Fault Refusal :=
  match i with
  | .init ledcount dev => Sys2Proof.Machine.execInit ledcount dev s
  | .setmb br => Sys2Proof.Machine.execSetmb br s
  | .updbr br => Sys2Proof.Machine.execUpdbr br s
  | .setpx idx r g b a => Sys2Proof.Machine.execSetpx idx r g b a s
  | .fill r g b a => Sys2Proof.Machine.execFill r g b a s
  | .setord rp gp bp => Sys2Proof.Machine.execSetord rp gp bp s
  | .update => Sys2Proof.Machine.execUpdate s
  | .wheel pos => Sys2Proof.Machine.execWheel pos s

end Sys2Proof.Machine
end

