-- ==== Sys2Proof/Machine/Step.lean ====
section
/-! DEFINITION. One step: the next command word is taken from the port, decoded and run to completion
(`30_encoding.md` R80, R83; `70_reset_and_hazards.md` R235). -/

namespace Sys2Proof.Machine

/-- Decoding comes first and a reserved word is refused before any operand is looked at (R197); with no
command presented the block idles (R221). -/
def step (s : State) : Host.Outcome State Fault Refusal :=
  match fetch s with
  | none         => idle s
  | some (w, s') =>
    match decode w with
    | .ok i      => exec i s'
    | .error why => .refused (.reserved why)

/-- The state in which the host presents next the word that the opcode table's bits stand for. -/
def State.withFetchWord (s : State) (nbits w : Nat) : State := s.present (tableWord nbits w)

end Sys2Proof.Machine
end

