-- ==== Sys2Proof/Machine/Assembler.lean ====
section
/-! DEFINITION. Assembler operands and pseudo-instructions (`30_encoding.md` R96, R97): host-side names
for commands. `SETPXHSV` and `FILLHSV` have no expansion (R97, `91_not_in_source.md` N11). -/

namespace Sys2Proof.Machine

/-- `INIT n, dev`. -/
def asmInit (n dev : Nat) : Instr := .init (BitVec.ofNat 16 n) (BitVec.ofNat 16 dev)

/-- `SETMB q`, `q` in units of 1/16384. -/
def asmSetmb (q : Int) : Instr := .setmb (BitVec.ofInt 16 q)

/-- `UPDBR q`, `q` in units of 1/16384. -/
def asmUpdbr (q : Int) : Instr := .updbr (BitVec.ofInt 16 q)

/-- `SETPX idx, r, g, b, a`. -/
def asmSetpx (idx : Int) (r g b a : Byte) : Instr := .setpx (BitVec.ofInt 24 idx) r g b a

/-- `FILL r, g, b, a`. -/
def asmFill (r g b a : Byte) : Instr := .fill r g b a

/-- `SETORD or, og, ob`. -/
def asmSetord (rp gp bp : Nat) : Instr := .setord (BitVec.ofNat 2 rp) (BitVec.ofNat 2 gp) (BitVec.ofNat 2 bp)

/-- `UPDATE`. -/
def asmUpdate : Instr := .update

/-- `WHEEL pos`. -/
def asmWheel (pos : Int) : Instr := .wheel (BitVec.ofInt 16 pos)

/-- `SETPXRGB idx, r, g, b` (`setPixelRGB`): alpha is 1.0. -/
def asmSetpxRgb (idx : Int) (r g b : Byte) : Instr := asmSetpx idx r g b 255

/-- `SETPXOFF idx` (`setPixelOff`): intensity 0. -/
def asmSetpxOff (idx : Int) : Instr := asmSetpx idx 0 0 0 255

/-- `FILLRGB r, g, b` (`fillRGB`): alpha is 1.0. -/
def asmFillRgb (r g b : Byte) : Instr := asmFill r g b 255

/-- `ALLOFF` (`allOFF`): intensity 0 everywhere. -/
def asmAllOff : Instr := asmFill 0 0 0 255

/-- `SETORD.RGB`: red, green, blue at positions 0, 1, 2. -/
def asmSetordRGB : Instr := asmSetord 0 1 2

/-- `SETORD.GRB`: the default order. -/
def asmSetordGRB : Instr := asmSetord 1 0 2

/-- `SETORD.BRG`: blue, red, green at positions 0, 1, 2. -/
def asmSetordBRG : Instr := asmSetord 1 2 0

end Sys2Proof.Machine
end

