-- ==== Sys2Proof/Safety.lean ====
section
/-! DEFINITION. The terms in which claims about the block are stated: its invariants, and what a command
keeps. -/

namespace Sys2Proof.Machine

/-- `ORDER` is a permutation of {0,1,2} (R25). -/
abbrev ChannelOrder.legal (o : ChannelOrder) : Prop := isPermutation o.r o.g o.b = true

/-- R29 items 1 to 3, with the state before INIT: no buffer exists there (R21). -/
structure State.Inv (s : State) : Prop where
  order    : s.order.legal
  bright   : s.bright.toNat ≤ 16384
  pixels   : s.phase = .ready → s.pb.length = s.ledCount.toNat
  noPixels : s.phase = .uninit → s.pb = []

/-- The shape of a frame of `n` pixels (R53, R145): `3n + 2` bytes of which the last two are zero. -/
def isFrame (n : Nat) (bytes : List Byte) : Prop :=
  bytes.length = 3 * n + 2 ∧ bytes.drop (3 * n) = [0x00, 0x00]

/-- The bus as the rules leave it: nothing opened or sent before INIT (R221); one `BusOpen` since, with
`DEVICE` and the fixed configuration, whose handle is kept (R200); every transaction one complete frame
under that handle (R202). -/
structure State.BusInv (s : State) : Prop where
  before : s.phase = .uninit → s.bus = [] ∧ s.opens = []
  opened : s.phase = .ready → s.opens = [⟨s.device, busConfig s.params, s.handle⟩]
  frames : ∀ t ∈ s.bus, t.handle = s.handle ∧ isFrame s.ledCount.toNat t.bytes

/-- R29 item 4: every byte of the buffer is an entry of the gamma table. -/
def State.NativePixels (s : State) : Prop := ∀ px ∈ s.pb, ∀ v ∈ px.bytes, v ∈ gammaTable

/-- The commands that end in an update (R62). -/
def publishes : Instr → Bool
  | .init _ _        => true
  | .setmb _         => false
  | .updbr _         => true
  | .setpx _ _ _ _ _ => false
  | .fill _ _ _ _    => true
  | .setord _ _ _    => false
  | .update          => true
  | .wheel _         => false

/-- An UPDBR that lowers bytes: a valid operand below 1.0 (R29 item 4, R165). -/
def lowersBytes : Instr → Bool
  | .init _ _        => false
  | .setmb _         => false
  | .updbr br        => brightValid (brightOperand br) && decide (brightOperand br < 16384)
  | .setpx _ _ _ _ _ => false
  | .fill _ _ _ _    => false
  | .setord _ _ _    => false
  | .update          => false
  | .wheel _         => false

/-- What the instance and INIT fix for good: the parameters (R6, R201), phase, `N`, `DEVICE`, `HANDLE` (R23,
R24, R28). -/
structure SameConstruction (s t : State) : Prop where
  params   : t.params = s.params
  phase    : t.phase = s.phase
  ledCount : t.ledCount = s.ledCount
  device   : t.device = s.device
  handle   : t.handle = s.handle

/-- Every byte of the buffer reads as before. -/
def SameBytes (s t : State) : Prop := ∀ addr, t.readByte addr = s.readByte addr

/-- Nothing was opened or sent, and nothing was asked of the environment. -/
structure SameBus (s t : State) : Prop where
  bus     : t.bus = s.bus
  opens   : t.opens = s.opens
  replies : t.replies = s.replies
  draws   : t.draws = s.draws

/-- The command ended with this response, the one it gave, and took no word from the port. -/
structure Responded (en : Ending) (s t : State) : Prop where
  responses : t.responses = s.responses ++ [responseWord en]
  pending   : t.pending = s.pending

/-- The command sent one frame, of its buffer and under its handle, with the environment's next reply
as its result, and opened nothing. -/
structure SentFrame (r : BusResult) (s t : State) : Prop where
  bus     : t.bus = s.bus ++ [⟨t.handle, encodeFrame t.pb, r⟩]
  opens   : t.opens = s.opens
  replies : t.replies = s.replies.tail
  draws   : t.draws = if s.replies.isEmpty then s.draws + 1 else s.draws

/-- The seven items of R20 that a command can change are the same. -/
structure SameBlock (s t : State) : Prop where
  construction : SameConstruction s t
  order        : t.order = s.order
  bright       : t.bright = s.bright
  pb           : t.pb = s.pb

end Sys2Proof.Machine
end

