-- ==== Sys2Proof/Certificates/Slice0/Obligations.lean ====
section
/-! DEFINITION. The statements for the provers: what the numbered rules of spec/ say the block does. -/

open Sys2Proof Sys2Proof.Machine

/-! ### Encoding -/

/-- Words written out in `30_encoding.md`, `43_control.md` and `95_test_vectors.md` 2.3, 2.8, 2.9 decode to
the command they stand for, or are rejected by the name of the rule that reserves them. -/
def Obligations.ListedWordsDecode : Prop :=
  decode 0x1000000000020000 = .ok (.init 2 0) ∧
  decode 0x200000000000F99A = .ok (.setmb 0xF99A) ∧
  decode 0x3000000000002000 = .ok (.updbr 0x2000) ∧
  decode 0x40FFFFFF01020304 = .ok (.setpx 0xFFFFFF 1 2 3 4) ∧
  decode 0x50000000FF0000FF = .ok (.fill 255 0 0 255) ∧
  decode 0x6000000000000018 = .ok (.setord 1 2 0) ∧
  decode 0x7000000000000000 = .ok .update ∧
  decode 0x80000000000000C8 = .ok (.wheel 200) ∧
  decode 0x0000000000000000 = .error .reservedOpcode ∧
  decode 0x4100000001020304 = .error .mustBeZeroBitSet ∧
  decode 0x600000000000001B = .error .orderNotPermutation

/-- R81 to R90: every well-formed command, with every value of every operand field, is the command its
own word decodes to. -/
def Obligations.DecodeOfEncode : Prop :=
  ∀ i : Instr, i.wf = true → decode (encode i) = .ok i

/-- R83: each accepted word has one meaning: the command is well-formed and its word is the word read, so
no bit of a word is ignored. -/
def Obligations.EncodeOfDecode : Prop :=
  ∀ (w : Word) (i : Instr), decode w = .ok i → i.wf = true ∧ encode i = w

/-- `spec/opcode_table.json`: the decoder accepts exactly the words that match a row of the table, and of
the SETORD row only those whose three fields are a permutation. -/
def Obligations.DecoderAcceptsExactlyTheTable : Prop :=
  ∀ w : Word, (∃ i, decode w = .ok i) ↔
    ∃ row ∈ opcodeRows, w &&& row.mask = row.pattern ∧
      (row.mnemonic = "SETORD" → isPermutation (field w 4 2) (field w 2 2) (field w 0 2) = true)

/-- No word belongs to two rows of the opcode table. -/
def Obligations.OpcodeRowsAreDisjoint : Prop :=
  opcodeRows.Pairwise fun x y =>
    ∀ w : Word, ¬(w &&& x.mask = x.pattern ∧ w &&& y.mask = y.pattern)

/-- R91: a word whose opcode is 0x0 or 0x9 to 0xF is refused, whatever the state and the other bits. -/
def Obligations.ReservedOpcodesAreRefused : Prop :=
  ∀ (s : State) (w : Word) (ws : List Word), s.pending = w :: ws →
    opField w = 0 ∨ 9 ≤ (opField w).toNat →
    step s = .refused (.reserved .reservedOpcode)

/-- R92 (a), R85: a word of an assigned opcode with a must-be-zero bit set is refused in every state. The
`Z` bits of a row are those its mask fixes below the opcode. -/
def Obligations.MustBeZeroBitsAreRefused : Prop :=
  ∀ (s : State) (w : Word) (ws : List Word), s.pending = w :: ws →
    ∀ row ∈ opcodeRows, opField w = opField row.pattern → w &&& row.mask ≠ row.pattern →
    step s = .refused (.reserved .mustBeZeroBitSet)

/-- R92 (b): a SETORD word whose fields are not a permutation of 0, 1, 2 is refused in every state, and so
is the command itself (the latter is the model's choice, notes/assumptions/14.md). -/
def Obligations.NonPermutationsAreRefused : Prop :=
  ∀ (s : State) (rp gp bp : BitVec 2) (ws : List Word),
    ¬(({rp.toNat, gp.toNat, bp.toNat} : Finset Nat) = {0, 1, 2}) →
    (s.pending = encode (.setord rp gp bp) :: ws →
      step s = .refused (.reserved .orderNotPermutation)) ∧
    exec (.setord rp gp bp) s = .refused (.reserved .orderNotPermutation)

/-! ### The step and reset -/

/-- R80, R83: when the word presented decodes to a command, the step is that command's meaning in the
state with the word taken from the port. -/
def Obligations.StepRunsTheDecodedCommand : Prop :=
  ∀ (s : State) (w : Word) (ws : List Word) (i : Instr),
    s.pending = w :: ws → decode w = .ok i → step s = exec i { s with pending := ws }

/-- R221, as the model reads it (notes/assumptions/3.md): with no command presented a step changes
nothing. -/
def Obligations.NoCommandNoEffect : Prop :=
  ∀ s : State, s.pending = [] → step s = .next s

/-- The values R35 gives for reset: UNINIT, order GRB, brightness 1.0, `BUS` empty, whatever the instance's
parameters are; `State.reset` is the instance with R6's default bus clock. That no buffer exists is an empty
list here, the model's form of it (notes/assumptions/2.md), and that the parameters stand in the state is the
model's too (notes/assumptions/13.md). -/
def Obligations.ResetLeavesTheStatedValues : Prop :=
  State.reset = State.resetWith ⟨12000000⟩ ∧
  ∀ p : Params, (State.resetWith p).params = p ∧ (State.resetWith p).phase = .uninit ∧
    (State.resetWith p).order = ⟨1, 0, 2⟩ ∧ (State.resetWith p).bright.toNat = 16384 ∧
    (State.resetWith p).pb = [] ∧ (State.resetWith p).bus = []

/-! ### The gamma table -/

/-- R110: `G[i] = 0x80 | floor((i/255)^2.5 * 127 + 0.5)`, the power and the product over the reals. -/
def Obligations.GammaTableFollowsItsFormula : Prop :=
  ∀ i : BitVec 8,
    gamma i = 0x80#8 ||| BitVec.ofNat 8 ⌊((i.toNat : ℝ) / 255) ^ (5 / 2 : ℝ) * 127 + 1 / 2⌋₊

/-- R111, an inference the spec marks as its own: `t(i) = G[i] - 128` is the largest integer that is 0 or
meets the inequality, with no other arithmetic than on integers. -/
def Obligations.GammaEntryIsTheLargestInteger : Prop :=
  ∀ i : BitVec 8, 128 ≤ (gamma i).toNat ∧
    ∀ m : Nat, m ≤ (gamma i).toNat - 128 ↔
      (m = 0 ∨ (2 * (m : ℤ) - 1) ^ 2 * 255 ^ 5 ≤ 4 * 127 ^ 2 * (i.toNat : ℤ) ^ 5)

/-- R113 items 1 to 4: bit 7 is set in every entry, the table is monotone, its ends are 0x80 and 0xFF, and
four values do not occur. -/
def Obligations.GammaTableIsMonotoneAndNative : Prop :=
  (∀ i : BitVec 8, (gamma i).getLsbD 7 = true) ∧
  (∀ i j : BitVec 8, i ≤ j → gamma i ≤ gamma j) ∧
  gamma 0 = 0x80 ∧ gamma 255 = 0xFF ∧
  (∀ i : BitVec 8, gamma i ∉ [0xE7, 0xF0, 0xF7, 0xFC])

/-- R122: the gamma index is `floor(val8(c) * val8(a) * (BRIGHT/16384) * 255)`, in integers a quotient that
nothing cuts off; a zero factor gives 0, and full alpha and brightness give the channel itself. -/
def Obligations.GammaIndexIsTheFlooredProduct : Prop :=
  ∀ (c a : Byte) (q : BitVec 15), q.toNat ≤ 16384 →
    c.toNat * a.toNat * q.toNat < 2 ^ 30 ∧
    (gammaIndex c a q).toNat = c.toNat * a.toNat * q.toNat / 4177920 ∧
    ((gammaIndex c a q).toNat : ℤ) = ⌊val8 c * val8 a * ((q.toNat : ℚ) / 16384) * 255⌋ ∧
    (c = 0 ∨ a = 0 ∨ q = 0 → gammaIndex c a q = 0) ∧
    (a = 255 → q.toNat = 16384 → gammaIndex c a q = c)

/-! ### Pixel writes -/

/-- R124 with R120, R123, R191: SETPX in UNINIT is refused; in READY an index outside `0..N-1` raises
OutOfRange and changes nothing; any other index completes with the gamma entries of the three channels at
the positions `ORDER` gives them, every other byte, every register and the bus as before. The phase rule is
the spec's decision D11; that `PB` has `N` entries and `ORDER` is a permutation is `State.Inv`. -/
def Obligations.SetpxWritesOnePixel : Prop :=
  ∀ (s : State) (idx : BitVec 24) (r g b a : Byte),
    (s.phase = .uninit → exec (.setpx idx r g b a) s = .refused .beforeInit) ∧
    (s.phase = .ready → idx.toInt < 0 ∨ (s.ledCount.toNat : ℤ) ≤ idx.toInt →
      ∃ t, exec (.setpx idx r g b a) s = .next t ∧ SameBlock s t ∧ SameBus s t ∧
        Responded (.error .outOfRange) s t) ∧
    (s.Inv → s.phase = .ready → 0 ≤ idx.toInt → idx.toInt < (s.ledCount.toNat : ℤ) →
      ∃ t, exec (.setpx idx r g b a) s = .next t ∧
        t.readByte (pixelAddr idx.toInt.toNat + s.order.r.toNat) = some (gamma (gammaIndex r a s.bright)) ∧
        t.readByte (pixelAddr idx.toInt.toNat + s.order.g.toNat) = some (gamma (gammaIndex g a s.bright)) ∧
        t.readByte (pixelAddr idx.toInt.toNat + s.order.b.toNat) = some (gamma (gammaIndex b a s.bright)) ∧
        (∀ addr, addr < pixelAddr idx.toInt.toNat ∨ pixelAddr idx.toInt.toNat + 3 ≤ addr →
          t.readByte addr = s.readByte addr) ∧
        SameConstruction s t ∧ t.order = s.order ∧ t.bright = s.bright ∧ SameBus s t ∧
        Responded (.ok 0) s t)

/-- The frame of SETPX, in every state in which it ends: registers, bus and port as before, and every byte
outside the three of the pixel its index names; with an index out of range every byte of the buffer. -/
def Obligations.SetpxFrame : Prop :=
  ∀ (s t : State) (idx : BitVec 24) (r g b a : Byte), exec (.setpx idx r g b a) s = .next t →
    SameConstruction s t ∧ t.order = s.order ∧ t.bright = s.bright ∧ SameBus s t ∧
    t.pending = s.pending ∧ t.pb.length = s.pb.length ∧
    (∀ addr, addr < pixelAddr (pixelIndex idx).toNat ∨ pixelAddr (pixelIndex idx).toNat + 3 ≤ addr →
      t.readByte addr = s.readByte addr) ∧
    (indexInRange (pixelIndex idx) s.ledCount = false → SameBytes s t)

/-- R128 item 1 (D00 §8.2): at brightness 1.0 and alpha 1.0 the three bytes of the pixel, read back through
`ORDER`, are the gamma entries of the operands. -/
def Obligations.SetpxRoundTrip : Prop :=
  ∀ (s : State) (i : Nat) (r g b : Byte), s.Inv → s.phase = .ready → s.bright = 16384 →
    i < s.ledCount.toNat →
    ∃ t, exec (asmSetpxRgb i r g b) s = .next t ∧
      t.readByte (pixelAddr i + t.order.r.toNat) = some (gamma r) ∧
      t.readByte (pixelAddr i + t.order.g.toNat) = some (gamma g) ∧
      t.readByte (pixelAddr i + t.order.b.toNat) = some (gamma b)

/-- R125 (setPixelOff), an inference the spec marks as its own: SETPXOFF leaves 0x80 in all three bytes of
the pixel under any order and any brightness. -/
def Obligations.SetpxOffIsNeutral : Prop :=
  ∀ (s : State) (i : Nat), s.Inv → s.phase = .ready → i < s.ledCount.toNat →
    ∃ t, exec (asmSetpxOff i) s = .next t ∧ t.pb[i]? = some ⟨0x80, 0x80, 0x80⟩

/-- R126: FILL in UNINIT is refused; in READY it writes every pixel as a normalised write would, sends
exactly one frame of the filled buffer, and ends as the bus answered, with the buffer filled in either case.
(The phase rule is the spec's decision D11.) -/
def Obligations.FillWritesEveryPixelAndSends : Prop :=
  ∀ (s : State) (r g b a : Byte),
    (s.phase = .uninit → exec (.fill r g b a) s = .refused .beforeInit) ∧
    (s.Inv → s.phase = .ready → ∀ res, s.nextReply = .answer res →
      ∃ t, exec (.fill r g b a) s = .next t ∧
        (∀ i < s.ledCount.toNat,
          t.readByte (pixelAddr i + s.order.r.toNat) = some (gamma (gammaIndex r a s.bright)) ∧
          t.readByte (pixelAddr i + s.order.g.toNat) = some (gamma (gammaIndex g a s.bright)) ∧
          t.readByte (pixelAddr i + s.order.b.toNat) = some (gamma (gammaIndex b a s.bright))) ∧
        t.pb.length = s.pb.length ∧ SameConstruction s t ∧ t.order = s.order ∧ t.bright = s.bright ∧
        SentFrame res s t ∧ Responded (endingOfBus res) s t)

/-- R121: FILL's buffer write is the loop `for i in 0..N-1: PB_SET(i, v)`, which raises nothing. -/
def Obligations.FillIsTheLoopOfPixelWrites : Prop :=
  ∀ (s : State) (v : Native), s.pb.length = s.ledCount.toNat →
    (List.range s.ledCount.toNat).foldlM (fun (u : State) (i : Nat) => pbSet i v u) s = .ok (pbFill v s)

/-- R127 (D00 §8.8): after ALLOFF every byte of the buffer is 0x80, and the frame sent is `3*N` bytes 0x80
and two zero bytes, under any order and any brightness. -/
def Obligations.AllOffSendsNeutralFrame : Prop :=
  ∀ (s : State) (res : BusResult), s.Inv → s.phase = .ready → s.nextReply = .answer res →
    ∃ t, exec asmAllOff s = .next t ∧
      (∀ addr < 3 * s.ledCount.toNat, t.readByte addr = some 0x80) ∧
      t.bus = s.bus ++
        [⟨s.handle, List.replicate (3 * s.ledCount.toNat) 0x80 ++ [0x00, 0x00], res⟩]

/-! ### The encoder and the update -/

/-- R53, R140: the frame of a buffer has `3*N + 2` bytes; at offset `3*i + p` stands `PB[i][p]`; the last two
are zero. -/
def Obligations.FrameLayout : Prop :=
  ∀ s : State, s.Inv → s.phase = .ready →
    (encodeFrame s.pb).length = 3 * s.ledCount.toNat + 2 ∧
    (∀ i < s.ledCount.toNat, ∀ p < 3, ∃ v,
      s.readByte (pixelAddr i + p) = some v ∧ (encodeFrame s.pb)[3 * i + p]? = some v) ∧
    (encodeFrame s.pb)[3 * s.ledCount.toNat]? = some 0x00 ∧
    (encodeFrame s.pb)[3 * s.ledCount.toNat + 1]? = some 0x00

/-- R145, third clause, under R29 item 4: while every buffer byte is a gamma entry, no pixel byte of the
frame is below 0x80, so none is 0x00. -/
def Obligations.NativeFramesHaveNoLatchByte : Prop :=
  ∀ s : State, s.NativePixels → ∀ k < 3 * s.pb.length,
    ∃ v, (encodeFrame s.pb)[k]? = some v ∧ 0x80 ≤ v.toNat

/-- R144: UPDATE in UNINIT is refused; in READY it hands one frame of the buffer to the bus, ends `OK` or with
the TransportError the bus gave, and writes no other state. (The phase rule is the spec's decision D11.) -/
def Obligations.UpdateSendsOneFrame : Prop :=
  ∀ s : State,
    (s.phase = .uninit → exec .update s = .refused .beforeInit) ∧
    (s.phase = .ready → s.nextReply = .answer .ok →
      ∃ t, exec .update s = .next t ∧ SameBlock s t ∧ SentFrame .ok s t ∧ Responded (.ok 0) s t) ∧
    (s.phase = .ready → ∀ e sent, s.nextReply = .answer (.err e sent) →
      ∃ t, exec .update s = .next t ∧ SameBlock s t ∧ SentFrame (.err e sent) s t ∧
        Responded (.error (.transportError e)) s t)

/-- The frame of UPDATE, in every state in which it ends: every item of the block's state and every byte of
the buffer as before, one transaction more on the bus. -/
def Obligations.UpdateFrame : Prop :=
  ∀ s t : State, exec .update s = .next t →
    SameConstruction s t ∧ t.order = s.order ∧ t.bright = s.bright ∧ SameBytes s t ∧
    t.pending = s.pending ∧ t.opens = s.opens ∧ ∃ x, t.bus = s.bus ++ [x]

/-- R142: two updates with no write between them send identical frames, and the buffer is as it was. -/
def Obligations.RepeatedUpdatesSendTheSameFrame : Prop :=
  ∀ s t u : State, exec .update s = .next t → exec .update t = .next u →
    u.pb = s.pb ∧ ∃ x y, u.bus = s.bus ++ [x, y] ∧ x.bytes = y.bytes ∧
      x.bytes.length = 3 * s.pb.length + 2

/-- U8, R203: where the environment never returns from the write, a command that reaches its update stays
unfinished; that the step then ends in a fault is the model's choice (notes/assumptions/9.md). -/
def Obligations.UnansweredWritesNeverFinish : Prop :=
  ∀ s : State, s.nextReply = .never →
    (∀ n dev, s.phase = .uninit → exec (.init n dev) s = .fault .busWriteNeverReturns) ∧
    (s.phase = .ready → exec .update s = .fault .busWriteNeverReturns) ∧
    (∀ r g b a, s.phase = .ready → exec (.fill r g b a) s = .fault .busWriteNeverReturns) ∧
    (∀ br, s.phase = .ready → brightValid (brightOperand br) = true →
      exec (.updbr br) s = .fault .busWriteNeverReturns)

/-- R203, R196 (b): the block cannot see the result of a bus write: whatever two results the environment
gives, one command leaves the same block, having handed over the same bytes under the same handle (logged as
notes/assumptions/5.md says). -/
def Obligations.BusResultDoesNotReachTheBlock : Prop :=
  ∀ (i : Instr) (s t u : State) (rs : List BusReply) (x y : BusResult),
    exec i { s with replies := .answer x :: rs } = .next t →
    exec i { s with replies := .answer y :: rs } = .next u →
    SameBlock t u ∧ t.opens = u.opens ∧
    t.bus.map (fun z => (z.handle, z.bytes)) = u.bus.map (fun z => (z.handle, z.bytes))

/-- R203, U7: what of a transaction reached the strip is a prefix of the frame, and after a failed write any
prefix is possible; that all of it arrives when the write succeeds is the model's reading
(notes/assumptions/8.md). -/
def Obligations.FailedWritesDeliverAPrefix : Prop :=
  (∀ t : Transaction, t.received <+: t.bytes) ∧
  (∀ t : Transaction, t.result = .ok → t.received = t.bytes) ∧
  (∀ (h : Handle) (bytes pre : List Byte) (e : BitVec 24), pre <+: bytes →
    ∃ sent, (Transaction.mk h bytes (.err e sent)).received = pre)

/-! ### Control commands -/

/-- R160: INIT in READY is refused (R161 (c)); in UNINIT it sets `N` and `DEVICE`, makes `N` neutral pixels,
opens the bus once with `DEVICE` and the fixed configuration and keeps the handle, becomes READY and sends
one frame, `3*N` bytes 0x80 and two zero bytes; `ORDER` and `BRIGHT` stay. It ends as the bus answered, READY in
either case (R161 (b)). (The phases are the spec's decision D11, what a failed first update leaves its
decision D15, that the open succeeds its assumption D13, notes/assumptions/7.md; the log of opens and the
parameters' place in the state are the model's, notes/assumptions/5.md and 13.md.) -/
def Obligations.InitConstructsTheBlock : Prop :=
  ∀ (s : State) (n dev : BitVec 16),
    (s.phase = .ready → exec (.init n dev) s = .refused .initWhenReady) ∧
    (s.phase = .uninit → ∀ res, s.nextReply = .answer res →
      ∃ t, exec (.init n dev) s = .next t ∧
        t.phase = .ready ∧ t.ledCount = n ∧ t.device = dev ∧
        t.pb.length = n.toNat ∧ (∀ addr < 3 * n.toNat, t.readByte addr = some 0x80) ∧
        t.opens = s.opens ++ [⟨dev, ⟨0, none, s.params.busMaxSpeedHz⟩, t.handle⟩] ∧
        t.params = s.params ∧ t.order = s.order ∧ t.bright = s.bright ∧
        t.bus = s.bus ++ [⟨t.handle, List.replicate (3 * n.toNat) 0x80 ++ [0x00, 0x00], res⟩] ∧
        Responded (endingOfBus res) s t)

/-- R162: SETMB in UNINIT is refused; in READY a valid operand is stored as `BRIGHT`, an invalid one raises
InvalidArgument and changes nothing; in both cases the buffer is not rewritten and nothing is sent. (The
phase rule is the spec's decision D11.) -/
def Obligations.SetmbStoresAValidBrightness : Prop :=
  ∀ (s : State) (br : BitVec 16),
    (s.phase = .uninit → exec (.setmb br) s = .refused .beforeInit) ∧
    (s.phase = .ready → 0 ≤ br.toInt → br.toInt ≤ 16384 →
      ∃ t, exec (.setmb br) s = .next t ∧ (t.bright.toNat : ℤ) = br.toInt ∧ t.pb = s.pb ∧
        t.order = s.order ∧ SameConstruction s t ∧ SameBus s t ∧ Responded (.ok 0) s t) ∧
    (s.phase = .ready → br.toInt < 0 ∨ 16384 < br.toInt →
      ∃ t, exec (.setmb br) s = .next t ∧ SameBlock s t ∧ SameBus s t ∧
        Responded (.error .invalidArgument) s t)

/-- R164: UPDBR in UNINIT is refused; in READY an invalid operand raises InvalidArgument and changes and sends
nothing; a valid one is stored as `BRIGHT`, every byte of the buffer becomes `floor(byte * q / 16384)`, and one
frame of the rescaled buffer is sent, after which the command ends as the bus answered. (The phase rule is the
spec's decision D11, that bit 7 is scaled like the others its decision D16.) -/
def Obligations.UpdbrRescalesEveryByteAndSends : Prop :=
  ∀ (s : State) (br : BitVec 16),
    (s.phase = .uninit → exec (.updbr br) s = .refused .beforeInit) ∧
    (s.phase = .ready → 0 ≤ br.toInt → br.toInt ≤ 16384 → ∀ res, s.nextReply = .answer res →
      ∃ t, exec (.updbr br) s = .next t ∧ (t.bright.toNat : ℤ) = br.toInt ∧
        t.pb.length = s.pb.length ∧
        (∀ addr v, s.readByte addr = some v →
          ∃ v', t.readByte addr = some v' ∧ (v'.toNat : ℤ) = ⌊(v.toNat : ℚ) * valQ br⌋) ∧
        t.order = s.order ∧ SameConstruction s t ∧ SentFrame res s t ∧ Responded (endingOfBus res) s t) ∧
    (s.phase = .ready → br.toInt < 0 ∨ 16384 < br.toInt →
      ∃ t, exec (.updbr br) s = .next t ∧ SameBlock s t ∧ SameBus s t ∧
        Responded (.error .invalidArgument) s t)

/-- R165 item 1, an inference the spec marks as its own: a factor below 1.0 lowers every byte that is not
zero, a factor of 0.5 or less takes every byte below 0x80, and the factor 0 makes every byte zero. -/
def Obligations.RescaleLosesTheHighBit : Prop :=
  ∀ (q : Nat) (v : Byte), q < 16384 →
    (1 ≤ v.toNat → (rescaleByte q v).toNat ≤ v.toNat - 1) ∧
    (q ≤ 8192 → (rescaleByte q v).toNat < 0x80) ∧
    (q = 0 → rescaleByte q v = 0)

/-- R164, corner case: UPDBR with 1.0 leaves every byte as it is, and sends a frame all the same. -/
def Obligations.UpdbrByOneKeepsTheBytes : Prop :=
  ∀ (s : State) (res : BusResult), s.phase = .ready → s.nextReply = .answer res →
    ∃ t, exec (.updbr 0x4000) s = .next t ∧ t.pb = s.pb ∧ t.bright.toNat = 16384 ∧ SentFrame res s t

/-- R165 item 2: the rescale is cumulative: two UPDBR multiply and floor the already floored byte. -/
def Obligations.UpdbrCompounds : Prop :=
  ∀ (s t u : State) (x y : BitVec 16), s.phase = .ready →
    0 ≤ x.toInt → x.toInt ≤ 16384 → 0 ≤ y.toInt → y.toInt ≤ 16384 →
    exec (.updbr x) s = .next t → exec (.updbr y) t = .next u →
    ∀ addr v, s.readByte addr = some v →
      ∃ v', u.readByte addr = some v' ∧
        v'.toNat = v.toNat * x.toInt.toNat / 16384 * y.toInt.toNat / 16384

/-- R166: SETORD of a permutation is refused in UNINIT; in READY it replaces the order and nothing else: the
buffer is not re-encoded and nothing is sent. (The phase rule is the spec's decision D11, the direction of the
mapping its decision D9.) -/
def Obligations.SetordReplacesTheOrder : Prop :=
  ∀ (s : State) (rp gp bp : BitVec 2),
    ({rp.toNat, gp.toNat, bp.toNat} : Finset Nat) = {0, 1, 2} →
    (s.phase = .uninit → exec (.setord rp gp bp) s = .refused .beforeInit) ∧
    (s.phase = .ready →
      ∃ t, exec (.setord rp gp bp) s = .next t ∧ t.order = ⟨rp, gp, bp⟩ ∧ t.pb = s.pb ∧
        t.bright = s.bright ∧ SameConstruction s t ∧ SameBus s t ∧ Responded (.ok 0) s t)

/-- R25, the presets (numbers by the spec's decision D9): after SETORD.RGB, .GRB, .BRG the bytes of a native value
stand in the order the preset's name spells. -/
def Obligations.PresetsSpellTheByteOrder : Prop :=
  ∀ (s : State) (v : Native) (px : Pixel), s.phase = .ready →
    (∃ t, exec asmSetordRGB s = .next t ∧ px.putNative t.order v = ⟨v.red, v.green, v.blue⟩) ∧
    (∃ t, exec asmSetordGRB s = .next t ∧ px.putNative t.order v = ⟨v.green, v.red, v.blue⟩) ∧
    (∃ t, exec asmSetordBRG s = .next t ∧ px.putNative t.order v = ⟨v.blue, v.red, v.green⟩)

/-- The frame of the commands that touch no byte and send nothing (SETMB, SETORD, WHEEL), in every state in which
they end: SETMB may change `BRIGHT` only, SETORD `ORDER` only, WHEEL nothing. -/
def Obligations.RegisterCommandsFrame : Prop :=
  ∀ s t : State,
    (∀ br, exec (.setmb br) s = .next t → t.order = s.order ∧
      SameConstruction s t ∧ SameBytes s t ∧ SameBus s t ∧ t.pending = s.pending) ∧
    (∀ rp gp bp, exec (.setord rp gp bp) s = .next t → t.bright = s.bright ∧
      SameConstruction s t ∧ SameBytes s t ∧ SameBus s t ∧ t.pending = s.pending) ∧
    (∀ pos, exec (.wheel pos) s = .next t → t.order = s.order ∧ t.bright = s.bright ∧
      SameConstruction s t ∧ SameBytes s t ∧ SameBus s t ∧ t.pending = s.pending)

/-- The frame of the commands that rewrite the whole buffer (INIT, FILL, UPDBR), in every state in which they end.
FILL and UPDBR store to linear addresses `0` to `3*N - 1` and keep the construction and the order, FILL the
brightness as well; INIT keeps the order, the brightness and the instance's parameters and stores to the
addresses of its new buffer. All other addresses read as before. -/
def Obligations.RewritingCommandsFrame : Prop :=
  ∀ s t : State, s.Inv →
    (∀ n dev, exec (.init n dev) s = .next t → t.params = s.params ∧ t.order = s.order ∧
      t.bright = s.bright ∧ t.pending = s.pending ∧
      ∀ addr, pixelAddr n.toNat ≤ addr → t.readByte addr = s.readByte addr) ∧
    (∀ r g b a, exec (.fill r g b a) s = .next t → SameConstruction s t ∧ t.order = s.order ∧
      t.bright = s.bright ∧ t.pending = s.pending ∧ t.opens = s.opens ∧
      ∀ addr, pixelAddr s.ledCount.toNat ≤ addr → t.readByte addr = s.readByte addr) ∧
    (∀ br, exec (.updbr br) s = .next t → SameConstruction s t ∧ t.order = s.order ∧
      t.pending = s.pending ∧ t.opens = s.opens ∧
      (brightValid (brightOperand br) = false → t.bright = s.bright ∧ SameBytes s t) ∧
      ∀ addr, pixelAddr s.ledCount.toNat ≤ addr → t.readByte addr = s.readByte addr)

/-! ### The wheel -/

/-- R180, by the formula of the spec's decision D18: WHEEL completes in either phase with the colour of its clamped
position as response data, and changes nothing. -/
def Obligations.WheelRespondsWithItsColour : Prop :=
  ∀ (s : State) (pos : BitVec 16), ∃ (t : State) (r g b : Nat),
    exec (.wheel pos) s = .next t ∧ SameBlock s t ∧ SameBus s t ∧
    Responded (.ok (BitVec.ofNat 24 (r * 65536 + g * 256 + b))) s t ∧
    r ≤ 127 ∧ g ≤ 127 ∧ b ≤ 127 ∧
    (pos.toInt ≤ 0 ∨ 384 ≤ pos.toInt → (r, g, b) = (127, 0, 0)) ∧
    (∀ k : Nat, k < 128 → pos.toInt = k → (r, g, b) = (127 - k, k, 0)) ∧
    (∀ k : Nat, k < 128 → pos.toInt = 128 + k → (r, g, b) = (0, 127 - k, k)) ∧
    (∀ k : Nat, k < 128 → pos.toInt = 256 + k → (r, g, b) = (k, 0, 127 - k))

/-- R182, an inference the spec marks as its own: the channels add up to 127 at every position; exactly one is 0,
but two where `p mod 128` is 0 or 127; neighbouring positions differ by at most 1 in each channel. -/
def Obligations.WheelIsContinuous : Prop :=
  (∀ p : Nat, p ≤ 384 → (wheelColor p).1 + (wheelColor p).2.1 + (wheelColor p).2.2 = 127 ∧
    [(wheelColor p).1, (wheelColor p).2.1, (wheelColor p).2.2].count 0 =
      if p % 128 = 0 ∨ p % 128 = 127 then 2 else 1) ∧
  (∀ p : Nat, p ≤ 383 →
    (wheelColor (p + 1)).1 ≤ (wheelColor p).1 + 1 ∧ (wheelColor p).1 ≤ (wheelColor (p + 1)).1 + 1 ∧
    (wheelColor (p + 1)).2.1 ≤ (wheelColor p).2.1 + 1 ∧ (wheelColor p).2.1 ≤ (wheelColor (p + 1)).2.1 + 1 ∧
    (wheelColor (p + 1)).2.2 ≤ (wheelColor p).2.2 + 1 ∧ (wheelColor p).2.2 ≤ (wheelColor (p + 1)).2.2 + 1)

/-! ### Invariants and rules of the whole machine -/

/-- The state after reset meets the invariants, whatever the instance's parameters are. -/
def Obligations.ResetMeetsTheInvariants : Prop :=
  State.reset.Inv ∧ State.reset.BusInv ∧ State.reset.NativePixels ∧
  ∀ p : Params, (State.resetWith p).Inv ∧ (State.resetWith p).BusInv ∧ (State.resetWith p).NativePixels

/-- R29 items 1 to 3: from every state in which they hold, a step leads to one in which they hold: the buffer has
`N` entries, `ORDER` is a permutation, `BRIGHT` is at most 16384. -/
def Obligations.StepKeepsTheInvariant : Prop :=
  ∀ s t : State, s.Inv → step s = .next t → t.Inv

/-- R200, R202, R221, R142 (handles and opens as the model logs them, notes/assumptions/5.md): every
transaction on the bus is one complete frame of `3*N + 2` bytes under the stored handle, which the one
`BusOpen` returned; before INIT there is none; and a step keeps it so. -/
def Obligations.StepKeepsTheBusInvariant : Prop :=
  ∀ s t : State, s.Inv → s.BusInv → step s = .next t → t.BusInv

/-- R29 item 4, one step of it: a step keeps every buffer byte an entry of the gamma table unless it runs an UPDBR
with a valid operand below 1.0. -/
def Obligations.StepKeepsNativePixels : Prop :=
  ∀ s t : State, s.NativePixels → step s = .next t →
    (∀ w ws i, s.pending = w :: ws → decode w = .ok i → lowersBytes i = false) →
    t.NativePixels

/-- R23, R24, R28, R223, R21: in READY no step changes `N`, `DEVICE`, `HANDLE` or the phase, or resizes the
buffer. -/
def Obligations.ConstructionIsFinal : Prop :=
  ∀ s t : State, s.phase = .ready → step s = .next t →
    SameConstruction s t ∧ t.opens = s.opens ∧ t.pb.length = s.pb.length

/-- R20, the writers: a command that is not SETORD leaves `ORDER`, one that is not SETMB or UPDBR leaves `BRIGHT`, one
that is not INIT, SETPX, FILL or UPDBR leaves `PB`, one that is not INIT leaves `N`, `DEVICE`, `PHASE`, `HANDLE`; and no
command writes the instance's parameters (R6, R201). -/
def Obligations.OnlyTheNamedCommandsWrite : Prop :=
  ∀ (i : Instr) (s t : State), exec i s = .next t →
    ((∀ rp gp bp, i ≠ .setord rp gp bp) → t.order = s.order) ∧
    ((∀ br, i ≠ .setmb br) → (∀ br, i ≠ .updbr br) → t.bright = s.bright) ∧
    ((∀ n dev, i ≠ .init n dev) → (∀ idx r g b a, i ≠ .setpx idx r g b a) →
      (∀ r g b a, i ≠ .fill r g b a) → (∀ br, i ≠ .updbr br) → t.pb = s.pb) ∧
    ((∀ n dev, i ≠ .init n dev) → SameConstruction s t) ∧
    t.params = s.params

/-- R62, R31, R146: a command that ends in an update and raises no InvalidArgument appends exactly one transaction,
of the buffer it leaves; every other command appends none. -/
def Obligations.OnlyUpdatesPublish : Prop :=
  ∀ (i : Instr) (s t : State), exec i s = .next t →
    (publishes i = true → (∀ br, i = .updbr br → brightValid (brightOperand br) = true) →
      ∃ res, t.bus = s.bus ++ [⟨t.handle, encodeFrame t.pb, res⟩]) ∧
    ((publishes i = false ∨ ∃ br, i = .updbr br ∧ brightValid (brightOperand br) = false) → t.bus = s.bus)

/-- R80 (the response log is the model's own observation, notes/assumptions/4.md): a step that runs a command takes one
word from the port and gives exactly one response. -/
def Obligations.OneResponsePerCommand : Prop :=
  ∀ (s t : State) (w : Word) (ws : List Word), s.pending = w :: ws → step s = .next t →
    t.pending = ws ∧ ∃ en, t.responses = s.responses ++ [responseWord en]

/-- R94, R194: the response word holds `STATUS` and `DATA` in their places, with the codes 0 to 3. -/
def Obligations.ResponseWordLayout : Prop :=
  ∀ (d e : BitVec 24),
    ((responseWord (.ok d)).extractLsb' 24 8 = 0 ∧ (responseWord (.ok d)).extractLsb' 0 24 = d) ∧
    ((responseWord (.error .outOfRange)).extractLsb' 24 8 = 1 ∧
      (responseWord (.error .outOfRange)).extractLsb' 0 24 = 0) ∧
    ((responseWord (.error .invalidArgument)).extractLsb' 24 8 = 2 ∧
      (responseWord (.error .invalidArgument)).extractLsb' 0 24 = 0) ∧
    ((responseWord (.error (.transportError e))).extractLsb' 24 8 = 3 ∧
      (responseWord (.error (.transportError e))).extractLsb' 0 24 = e)

/-- R190, R191, R192, R193: a command that ends raises OutOfRange only as a SETPX with an index outside `0..N-1`,
InvalidArgument only as a SETMB or UPDBR with an operand outside [0,1], TransportError with value `e` only as a
command that updates and whose bus write answered `err e`; and no other error. -/
def Obligations.ErrorsHaveTheirStatedCauses : Prop :=
  ∀ (i : Instr) (s t : State), exec i s = .next t → ∃ en : Ending, Responded en s t ∧
    (en = .error .outOfRange ↔ ∃ idx r g b a, i = .setpx idx r g b a ∧
      (idx.toInt < 0 ∨ (s.ledCount.toNat : ℤ) ≤ idx.toInt)) ∧
    (en = .error .invalidArgument ↔ ∃ br, (i = .setmb br ∨ i = .updbr br) ∧
      (br.toInt < 0 ∨ 16384 < br.toInt)) ∧
    (∀ e, en = .error (.transportError e) ↔ publishes i = true ∧
      ∃ x sent, t.bus = s.bus ++ [x] ∧ x.result = .err e sent)

/-- R196 (a): a command that raises OutOfRange or InvalidArgument leaves the whole state as it was but for the
response it gives. -/
def Obligations.ValidationErrorsChangeNothing : Prop :=
  ∀ (i : Instr) (s t : State), exec i s = .next t →
    Responded (.error .outOfRange) s t ∨ Responded (.error .invalidArgument) s t →
    SameBlock s t ∧ SameBus s t

/-- R59, an inference the spec marks as its own: repeating SETPX, SETMB or SETORD with the same operands leaves the
same state as doing it once. -/
def Obligations.RepeatingSetCommandsChangesNothing : Prop :=
  ∀ (i : Instr) (s t u : State),
    ((∃ idx r g b a, i = .setpx idx r g b a) ∨ (∃ br, i = .setmb br) ∨
      ∃ rp gp bp, i = .setord rp gp bp) →
    s.Inv → exec i s = .next t → exec i t = .next u → SameBlock t u ∧ SameBus t u

/-- R6, R201, D26: `BUS_MAXSPEED_HZ` is read by no rule. Two instances that differ in their parameters only do the
same: a command other than INIT with the same outcome but for the parameter itself, and INIT with the same block,
frames and response but for the configuration it hands to `BusOpen` and the handle that this returns. (The handle
is free in its arguments, notes/assumptions/12.md; the parameters stand in the state, notes/assumptions/13.md.) -/
def Obligations.BusSpeedIsReadByNoRule : Prop :=
  ∀ (s t : State) (p : Params),
    (∀ i : Instr, (∀ n dev, i ≠ .init n dev) → exec i s = .next t →
      exec i { s with params := p } = .next { t with params := p }) ∧
    (∀ n dev, exec (.init n dev) s = .next t →
      ∃ u, exec (.init n dev) { s with params := p } = .next u ∧ u.phase = t.phase ∧
        u.ledCount = t.ledCount ∧ u.device = t.device ∧ u.order = t.order ∧ u.bright = t.bright ∧
        u.pb = t.pb ∧ u.responses = t.responses ∧ u.pending = t.pending ∧ u.replies = t.replies ∧ u.draws = t.draws ∧
        u.bus.map (fun z => (z.bytes, z.result)) = t.bus.map (fun z => (z.bytes, z.result)))
end

