-- ==== Sys2Proof/Laws/Decode.lean ====
section
/-! SUPPORT. What the checks of the decoder accept, and the fields of an encoded word. -/

namespace Sys2Proof

theorem checkZero_eq_ok {w : Word} {lo : Nat} {i j : Instr} :
    checkZero w lo i = .ok j ↔ zeroFrom w lo = true ∧ i = j := by
  unfold checkZero
  split
  · simp_all
  · simp_all

theorem decodeSetord_eq_ok {w : Word} {j : Instr} :
    decodeSetord w = .ok j ↔
      zeroFrom w 6 = true ∧ isPermutation (field w 4 2) (field w 2 2) (field w 0 2) = true ∧
      Instr.setord (field w 4 2) (field w 2 2) (field w 0 2) = j := by
  unfold decodeSetord
  split
  · split <;> simp_all
  · simp_all

/-- Below bit 60 a field of a word is a field of its payload. -/
theorem field_append {op : BitVec 4} {p : BitVec 60} {lo len : Nat} (h : lo + len ≤ 60) :
    field (op ++ p) lo len = p.extractLsb' lo len := by
  rw [field]
  ext k hk
  rw [BitVec.getElem_extractLsb', BitVec.getElem_extractLsb', BitVec.getLsbD_append, if_pos (by omega)]

end Sys2Proof
end

