-- ==== Sys2Proof/Laws/Operands.lean ====
section
/-! SUPPORT. What the operand checks and the stored brightness say, as facts about integers. -/

namespace Sys2Proof.Machine

theorem brightValid_iff (q : Int) : brightValid q = true ↔ 0 ≤ q ∧ q ≤ 16384 := by
  simp [brightValid]

theorem brightValid_eq_false (q : Int) : brightValid q = false ↔ q < 0 ∨ 16384 < q := by
  rw [← Bool.not_eq_true, brightValid_iff]; omega

theorem indexInRange_iff (i : Int) (n : BitVec 16) :
    indexInRange i n = true ↔ 0 ≤ i ∧ i < (n.toNat : Int) := by
  simp [indexInRange]

theorem indexInRange_eq_false (i : Int) (n : BitVec 16) :
    indexInRange i n = false ↔ i < 0 ∨ (n.toNat : Int) ≤ i := by
  rw [← Bool.not_eq_true, indexInRange_iff]; omega

/-- A valid brightness is stored as the integer it is (R26). -/
theorem brightStored_toNat {q : Int} (h : brightValid q = true) : ((brightStored q).toNat : Int) = q := by
  obtain ⟨h0, h1⟩ := (brightValid_iff q).1 h
  simp only [brightStored, BitVec.toNat_ofInt]
  omega

end Sys2Proof.Machine

namespace Sys2Proof

/-- A legal triple of positions is made of 0, 1 and 2, each once (R89). -/
theorem isPermutation_iff (rp gp bp : BitVec 2) :
    isPermutation rp gp bp = true ↔ ({rp.toNat, gp.toNat, bp.toNat} : Finset Nat) = {0, 1, 2} := by
  revert rp gp bp; decide

end Sys2Proof
end

