-- ==== Sys2Proof/Laws/State.lean ====
section
/-! SUPPORT. What each update of the state does to each field: one lemma per field per update, so that no
proof unfolds a record update. -/

namespace Sys2Proof.Machine

@[simp] theorem State.resetWith_params (p : Params) : (State.resetWith p).params = p := rfl

variable (s : State)

@[simp] theorem State.construct_params (n dev : BitVec 16) (px : List Pixel) : (s.construct n dev px).params = s.params := rfl
@[simp] theorem State.construct_phase (n dev : BitVec 16) (px : List Pixel) : (s.construct n dev px).phase = s.phase := rfl
@[simp] theorem State.construct_ledCount (n dev : BitVec 16) (px : List Pixel) : (s.construct n dev px).ledCount = n := rfl
@[simp] theorem State.construct_device (n dev : BitVec 16) (px : List Pixel) : (s.construct n dev px).device = dev := rfl
@[simp] theorem State.construct_order (n dev : BitVec 16) (px : List Pixel) : (s.construct n dev px).order = s.order := rfl
@[simp] theorem State.construct_bright (n dev : BitVec 16) (px : List Pixel) : (s.construct n dev px).bright = s.bright := rfl
@[simp] theorem State.construct_pb (n dev : BitVec 16) (px : List Pixel) : (s.construct n dev px).pb = px := rfl
@[simp] theorem State.construct_handle (n dev : BitVec 16) (px : List Pixel) : (s.construct n dev px).handle = s.handle := rfl
@[simp] theorem State.construct_bus (n dev : BitVec 16) (px : List Pixel) : (s.construct n dev px).bus = s.bus := rfl
@[simp] theorem State.construct_pending (n dev : BitVec 16) (px : List Pixel) : (s.construct n dev px).pending = s.pending := rfl
@[simp] theorem State.construct_responses (n dev : BitVec 16) (px : List Pixel) : (s.construct n dev px).responses = s.responses := rfl
@[simp] theorem State.construct_opens (n dev : BitVec 16) (px : List Pixel) : (s.construct n dev px).opens = s.opens := rfl
@[simp] theorem State.construct_replies (n dev : BitVec 16) (px : List Pixel) : (s.construct n dev px).replies = s.replies := rfl
@[simp] theorem State.construct_draws (n dev : BitVec 16) (px : List Pixel) : (s.construct n dev px).draws = s.draws := rfl

@[simp] theorem State.setPixels_params (px : List Pixel) : (s.setPixels px).params = s.params := rfl
@[simp] theorem State.setPixels_phase (px : List Pixel) : (s.setPixels px).phase = s.phase := rfl
@[simp] theorem State.setPixels_ledCount (px : List Pixel) : (s.setPixels px).ledCount = s.ledCount := rfl
@[simp] theorem State.setPixels_device (px : List Pixel) : (s.setPixels px).device = s.device := rfl
@[simp] theorem State.setPixels_order (px : List Pixel) : (s.setPixels px).order = s.order := rfl
@[simp] theorem State.setPixels_bright (px : List Pixel) : (s.setPixels px).bright = s.bright := rfl
@[simp] theorem State.setPixels_pb (px : List Pixel) : (s.setPixels px).pb = px := rfl
@[simp] theorem State.setPixels_handle (px : List Pixel) : (s.setPixels px).handle = s.handle := rfl
@[simp] theorem State.setPixels_bus (px : List Pixel) : (s.setPixels px).bus = s.bus := rfl
@[simp] theorem State.setPixels_pending (px : List Pixel) : (s.setPixels px).pending = s.pending := rfl
@[simp] theorem State.setPixels_responses (px : List Pixel) : (s.setPixels px).responses = s.responses := rfl
@[simp] theorem State.setPixels_opens (px : List Pixel) : (s.setPixels px).opens = s.opens := rfl
@[simp] theorem State.setPixels_replies (px : List Pixel) : (s.setPixels px).replies = s.replies := rfl
@[simp] theorem State.setPixels_draws (px : List Pixel) : (s.setPixels px).draws = s.draws := rfl

@[simp] theorem State.setOrder_params (o : ChannelOrder) : (s.setOrder o).params = s.params := rfl
@[simp] theorem State.setOrder_phase (o : ChannelOrder) : (s.setOrder o).phase = s.phase := rfl
@[simp] theorem State.setOrder_ledCount (o : ChannelOrder) : (s.setOrder o).ledCount = s.ledCount := rfl
@[simp] theorem State.setOrder_device (o : ChannelOrder) : (s.setOrder o).device = s.device := rfl
@[simp] theorem State.setOrder_order (o : ChannelOrder) : (s.setOrder o).order = o := rfl
@[simp] theorem State.setOrder_bright (o : ChannelOrder) : (s.setOrder o).bright = s.bright := rfl
@[simp] theorem State.setOrder_pb (o : ChannelOrder) : (s.setOrder o).pb = s.pb := rfl
@[simp] theorem State.setOrder_handle (o : ChannelOrder) : (s.setOrder o).handle = s.handle := rfl
@[simp] theorem State.setOrder_bus (o : ChannelOrder) : (s.setOrder o).bus = s.bus := rfl
@[simp] theorem State.setOrder_pending (o : ChannelOrder) : (s.setOrder o).pending = s.pending := rfl
@[simp] theorem State.setOrder_responses (o : ChannelOrder) : (s.setOrder o).responses = s.responses := rfl
@[simp] theorem State.setOrder_opens (o : ChannelOrder) : (s.setOrder o).opens = s.opens := rfl
@[simp] theorem State.setOrder_replies (o : ChannelOrder) : (s.setOrder o).replies = s.replies := rfl
@[simp] theorem State.setOrder_draws (o : ChannelOrder) : (s.setOrder o).draws = s.draws := rfl

@[simp] theorem State.setBright_params (q : BitVec 15) : (s.setBright q).params = s.params := rfl
@[simp] theorem State.setBright_phase (q : BitVec 15) : (s.setBright q).phase = s.phase := rfl
@[simp] theorem State.setBright_ledCount (q : BitVec 15) : (s.setBright q).ledCount = s.ledCount := rfl
@[simp] theorem State.setBright_device (q : BitVec 15) : (s.setBright q).device = s.device := rfl
@[simp] theorem State.setBright_order (q : BitVec 15) : (s.setBright q).order = s.order := rfl
@[simp] theorem State.setBright_bright (q : BitVec 15) : (s.setBright q).bright = q := rfl
@[simp] theorem State.setBright_pb (q : BitVec 15) : (s.setBright q).pb = s.pb := rfl
@[simp] theorem State.setBright_handle (q : BitVec 15) : (s.setBright q).handle = s.handle := rfl
@[simp] theorem State.setBright_bus (q : BitVec 15) : (s.setBright q).bus = s.bus := rfl
@[simp] theorem State.setBright_pending (q : BitVec 15) : (s.setBright q).pending = s.pending := rfl
@[simp] theorem State.setBright_responses (q : BitVec 15) : (s.setBright q).responses = s.responses := rfl
@[simp] theorem State.setBright_opens (q : BitVec 15) : (s.setBright q).opens = s.opens := rfl
@[simp] theorem State.setBright_replies (q : BitVec 15) : (s.setBright q).replies = s.replies := rfl
@[simp] theorem State.setBright_draws (q : BitVec 15) : (s.setBright q).draws = s.draws := rfl

@[simp] theorem State.makeReady_params : (s.makeReady).params = s.params := rfl
@[simp] theorem State.makeReady_phase : (s.makeReady).phase = .ready := rfl
@[simp] theorem State.makeReady_ledCount : (s.makeReady).ledCount = s.ledCount := rfl
@[simp] theorem State.makeReady_device : (s.makeReady).device = s.device := rfl
@[simp] theorem State.makeReady_order : (s.makeReady).order = s.order := rfl
@[simp] theorem State.makeReady_bright : (s.makeReady).bright = s.bright := rfl
@[simp] theorem State.makeReady_pb : (s.makeReady).pb = s.pb := rfl
@[simp] theorem State.makeReady_handle : (s.makeReady).handle = s.handle := rfl
@[simp] theorem State.makeReady_bus : (s.makeReady).bus = s.bus := rfl
@[simp] theorem State.makeReady_pending : (s.makeReady).pending = s.pending := rfl
@[simp] theorem State.makeReady_responses : (s.makeReady).responses = s.responses := rfl
@[simp] theorem State.makeReady_opens : (s.makeReady).opens = s.opens := rfl
@[simp] theorem State.makeReady_replies : (s.makeReady).replies = s.replies := rfl
@[simp] theorem State.makeReady_draws : (s.makeReady).draws = s.draws := rfl

@[simp] theorem State.logOpen_params (c : OpenCall) : (s.logOpen c).params = s.params := rfl
@[simp] theorem State.logOpen_phase (c : OpenCall) : (s.logOpen c).phase = s.phase := rfl
@[simp] theorem State.logOpen_ledCount (c : OpenCall) : (s.logOpen c).ledCount = s.ledCount := rfl
@[simp] theorem State.logOpen_device (c : OpenCall) : (s.logOpen c).device = s.device := rfl
@[simp] theorem State.logOpen_order (c : OpenCall) : (s.logOpen c).order = s.order := rfl
@[simp] theorem State.logOpen_bright (c : OpenCall) : (s.logOpen c).bright = s.bright := rfl
@[simp] theorem State.logOpen_pb (c : OpenCall) : (s.logOpen c).pb = s.pb := rfl
@[simp] theorem State.logOpen_handle (c : OpenCall) : (s.logOpen c).handle = c.handle := rfl
@[simp] theorem State.logOpen_bus (c : OpenCall) : (s.logOpen c).bus = s.bus := rfl
@[simp] theorem State.logOpen_pending (c : OpenCall) : (s.logOpen c).pending = s.pending := rfl
@[simp] theorem State.logOpen_responses (c : OpenCall) : (s.logOpen c).responses = s.responses := rfl
@[simp] theorem State.logOpen_opens (c : OpenCall) : (s.logOpen c).opens = s.opens ++ [c] := rfl
@[simp] theorem State.logOpen_replies (c : OpenCall) : (s.logOpen c).replies = s.replies := rfl
@[simp] theorem State.logOpen_draws (c : OpenCall) : (s.logOpen c).draws = s.draws := rfl

@[simp] theorem State.logWrite_params (x : Transaction) : (s.logWrite x).params = s.params := rfl
@[simp] theorem State.logWrite_phase (x : Transaction) : (s.logWrite x).phase = s.phase := rfl
@[simp] theorem State.logWrite_ledCount (x : Transaction) : (s.logWrite x).ledCount = s.ledCount := rfl
@[simp] theorem State.logWrite_device (x : Transaction) : (s.logWrite x).device = s.device := rfl
@[simp] theorem State.logWrite_order (x : Transaction) : (s.logWrite x).order = s.order := rfl
@[simp] theorem State.logWrite_bright (x : Transaction) : (s.logWrite x).bright = s.bright := rfl
@[simp] theorem State.logWrite_pb (x : Transaction) : (s.logWrite x).pb = s.pb := rfl
@[simp] theorem State.logWrite_handle (x : Transaction) : (s.logWrite x).handle = s.handle := rfl
@[simp] theorem State.logWrite_bus (x : Transaction) : (s.logWrite x).bus = s.bus ++ [x] := rfl
@[simp] theorem State.logWrite_pending (x : Transaction) : (s.logWrite x).pending = s.pending := rfl
@[simp] theorem State.logWrite_responses (x : Transaction) : (s.logWrite x).responses = s.responses := rfl
@[simp] theorem State.logWrite_opens (x : Transaction) : (s.logWrite x).opens = s.opens := rfl
@[simp] theorem State.logWrite_replies (x : Transaction) : (s.logWrite x).replies = s.replies.tail := rfl
@[simp] theorem State.logWrite_draws (x : Transaction) : (s.logWrite x).draws = if s.replies.isEmpty then s.draws + 1 else s.draws := rfl

@[simp] theorem State.logResponse_params (w : RespWord) : (s.logResponse w).params = s.params := rfl
@[simp] theorem State.logResponse_phase (w : RespWord) : (s.logResponse w).phase = s.phase := rfl
@[simp] theorem State.logResponse_ledCount (w : RespWord) : (s.logResponse w).ledCount = s.ledCount := rfl
@[simp] theorem State.logResponse_device (w : RespWord) : (s.logResponse w).device = s.device := rfl
@[simp] theorem State.logResponse_order (w : RespWord) : (s.logResponse w).order = s.order := rfl
@[simp] theorem State.logResponse_bright (w : RespWord) : (s.logResponse w).bright = s.bright := rfl
@[simp] theorem State.logResponse_pb (w : RespWord) : (s.logResponse w).pb = s.pb := rfl
@[simp] theorem State.logResponse_handle (w : RespWord) : (s.logResponse w).handle = s.handle := rfl
@[simp] theorem State.logResponse_bus (w : RespWord) : (s.logResponse w).bus = s.bus := rfl
@[simp] theorem State.logResponse_pending (w : RespWord) : (s.logResponse w).pending = s.pending := rfl
@[simp] theorem State.logResponse_responses (w : RespWord) : (s.logResponse w).responses = s.responses ++ [w] := rfl
@[simp] theorem State.logResponse_opens (w : RespWord) : (s.logResponse w).opens = s.opens := rfl
@[simp] theorem State.logResponse_replies (w : RespWord) : (s.logResponse w).replies = s.replies := rfl
@[simp] theorem State.logResponse_draws (w : RespWord) : (s.logResponse w).draws = s.draws := rfl

@[simp] theorem State.setPending_params (ws : List Word) : (s.setPending ws).params = s.params := rfl
@[simp] theorem State.setPending_phase (ws : List Word) : (s.setPending ws).phase = s.phase := rfl
@[simp] theorem State.setPending_ledCount (ws : List Word) : (s.setPending ws).ledCount = s.ledCount := rfl
@[simp] theorem State.setPending_device (ws : List Word) : (s.setPending ws).device = s.device := rfl
@[simp] theorem State.setPending_order (ws : List Word) : (s.setPending ws).order = s.order := rfl
@[simp] theorem State.setPending_bright (ws : List Word) : (s.setPending ws).bright = s.bright := rfl
@[simp] theorem State.setPending_pb (ws : List Word) : (s.setPending ws).pb = s.pb := rfl
@[simp] theorem State.setPending_handle (ws : List Word) : (s.setPending ws).handle = s.handle := rfl
@[simp] theorem State.setPending_bus (ws : List Word) : (s.setPending ws).bus = s.bus := rfl
@[simp] theorem State.setPending_pending (ws : List Word) : (s.setPending ws).pending = ws := rfl
@[simp] theorem State.setPending_responses (ws : List Word) : (s.setPending ws).responses = s.responses := rfl
@[simp] theorem State.setPending_opens (ws : List Word) : (s.setPending ws).opens = s.opens := rfl
@[simp] theorem State.setPending_replies (ws : List Word) : (s.setPending ws).replies = s.replies := rfl
@[simp] theorem State.setPending_draws (ws : List Word) : (s.setPending ws).draws = s.draws := rfl

end Sys2Proof.Machine
end

