-- ==== Sys2Proof/Laws/Pixels.lean ====
section
/-! SUPPORT. Pixels, the buffer and its linear view: read after write, and what each buffer operation
keeps. -/

namespace Sys2Proof.Machine

/-- A 2-bit position is one of four. -/
theorem position_cases : ∀ p : BitVec 2, p = 0 ∨ p = 1 ∨ p = 2 ∨ p = 3 := by decide

theorem Pixel.length_bytes (px : Pixel) : px.bytes.length = 3 := rfl

@[simp] theorem Pixel.byteAt_zero (px : Pixel) : px.byteAt 0 = some px.p0 := rfl
@[simp] theorem Pixel.byteAt_one (px : Pixel) : px.byteAt 1 = some px.p1 := rfl
@[simp] theorem Pixel.byteAt_two (px : Pixel) : px.byteAt 2 = some px.p2 := rfl

/-- A read after the write of the same position gives the byte written. -/
theorem Pixel.byteAt_put_self (px : Pixel) (p : BitVec 2) (v : Byte) (h : p ≠ 3) :
    (px.put p v).byteAt p.toNat = some v := by
  rcases position_cases p with rfl | rfl | rfl | rfl
  · rfl
  · rfl
  · rfl
  · exact absurd rfl h

/-- A write leaves every other position alone. -/
theorem Pixel.byteAt_put_of_ne (px : Pixel) (p : BitVec 2) (v : Byte) (k : Nat) (h : k ≠ p.toNat) :
    (px.put p v).byteAt k = px.byteAt k := by
  rcases position_cases p with rfl | rfl | rfl | rfl <;> rcases k with _ | _ | _ | k <;>
    first | rfl | exact absurd rfl h

/-- `PB_SET` on one pixel (R120): under a legal order each channel's byte stands at its position. -/
theorem Pixel.byteAt_putNative (px : Pixel) (o : ChannelOrder) (v : Native)
    (h : isPermutation o.r o.g o.b = true) :
    (px.putNative o v).byteAt o.r.toNat = some v.red ∧
    (px.putNative o v).byteAt o.g.toNat = some v.green ∧
    (px.putNative o v).byteAt o.b.toNat = some v.blue := by
  have hp : o.r ≠ 3 ∧ o.g ≠ 3 ∧ o.b ≠ 3 ∧ o.r ≠ o.g ∧ o.r ≠ o.b ∧ o.g ≠ o.b := by
    simpa [isPermutation, and_assoc] using h
  obtain ⟨hr, hg, hb, hrg, hrb, hgb⟩ := hp
  have hne {a b : BitVec 2} (h : a ≠ b) : a.toNat ≠ b.toNat := fun e => h (BitVec.eq_of_toNat_eq e)
  refine ⟨?_, ?_, ?_⟩
  · rw [putNative, byteAt_put_of_ne _ _ _ _ (hne hrb), byteAt_put_of_ne _ _ _ _ (hne hrg),
      byteAt_put_self _ _ _ hr]
  · rw [putNative, byteAt_put_of_ne _ _ _ _ (hne hgb), byteAt_put_self _ _ _ hg]
  · rw [putNative, byteAt_put_self _ _ _ hb]

/-- Under a legal order the old content of the pixel is wholly replaced (R120). -/
theorem Pixel.putNative_eq (px px' : Pixel) (o : ChannelOrder) (v : Native)
    (h : isPermutation o.r o.g o.b = true) : px.putNative o v = px'.putNative o v := by
  obtain ⟨r, g, b⟩ := o
  rcases position_cases r with rfl | rfl | rfl | rfl <;>
    rcases position_cases g with rfl | rfl | rfl | rfl <;>
    rcases position_cases b with rfl | rfl | rfl | rfl <;> first | rfl | exact absurd h (by decide)

/-- Writing a native value to a pixel puts nothing into it but the three bytes of the value. -/
theorem Pixel.mem_bytes_putNative {px : Pixel} {o : ChannelOrder} {v : Native} {x : Byte}
    (h : x ∈ (px.putNative o v).bytes) : x ∈ px.bytes ∨ x = v.red ∨ x = v.green ∨ x = v.blue := by
  have put {q : Pixel} {p : BitVec 2} {y : Byte} (h : x ∈ (q.put p y).bytes) : x ∈ q.bytes ∨ x = y := by
    unfold Pixel.put at h; split at h <;> simp [Pixel.bytes] at h ⊢ <;> tauto
  rcases put h with h | h
  · rcases put h with h | h
    · rcases put h with h | h <;> tauto
    · tauto
  · tauto

/-- The linear view of pixel `i` (R52): address `3*i + p` reads byte position `p`. -/
theorem State.readByte_pixelAddr (s : State) (i p : Nat) (hp : p < 3) :
    s.readByte (pixelAddr i + p) = s.pb[i]?.bind fun px => px.byteAt p := by
  have h1 : (pixelAddr i + p) / 3 = i := by unfold pixelAddr; omega
  have h2 : (pixelAddr i + p) % 3 = p := by unfold pixelAddr; omega
  rw [readByte, h1, h2]

/-- The linear view reads the buffer and nothing else. -/
theorem State.readByte_congr {s t : State} (h : t.pb = s.pb) (addr : Nat) :
    t.readByte addr = s.readByte addr := by rw [readByte, readByte, h]

/-- Outside the buffer there is no byte (R9: `addr + n <= 3*N`). -/
theorem State.readByte_eq_none {s : State} {addr : Nat} (h : 3 * s.pb.length ≤ addr) :
    s.readByte addr = none := by
  rw [readByte, List.getElem?_eq_none (by omega)]; rfl

/-- `PB_SET` (R120): out of range it raises, in range it modifies the one pixel. -/
theorem pbSet_cases (i : Int) (v : Native) (s : State) :
    (indexInRange i s.ledCount = false ∧ pbSet i v s = .error .outOfRange) ∨
    (indexInRange i s.ledCount = true ∧
      pbSet i v s = .ok (s.setPixels (s.pb.modify i.toNat (Pixel.putNative s.order v)))) := by
  unfold pbSet
  cases indexInRange i s.ledCount
  · exact .inl ⟨rfl, rfl⟩
  · exact .inr ⟨rfl, rfl⟩

@[simp] theorem pbFill_length (v : Native) (s : State) : (pbFill v s).pb.length = s.pb.length := by
  simp [pbFill]

@[simp] theorem pbRescale_length (q : Nat) (s : State) : (pbRescale q s).pb.length = s.pb.length := by
  simp [pbRescale]

theorem encodeFrame_length (px : List Pixel) : (encodeFrame px).length = 3 * px.length + 2 := by
  induction px with
  | nil => rfl
  | cons x xs ih =>
    simp only [encodeFrame, List.flatMap_cons, List.length_append, Pixel.length_bytes, List.length_cons] at ih ⊢
    omega

end Sys2Proof.Machine
end

