-- ==== Sys2Proof/Laws/Ops.lean ====
section
/-! SUPPORT. What the shared ends of a command can do: each lemma says once everything its operation can
answer. -/

namespace Sys2Proof.Machine

theorem endCommand_eq_next {en : Ending} {s t : State} :
    endCommand en s = .next t ↔ t = s.logResponse (responseWord en) := by
  simp [endCommand, eq_comm]

theorem raise_eq_next {e : Error} {s t : State} :
    raise e s = .next t ↔ t = s.logResponse (responseWord (.error e)) := endCommand_eq_next

theorem respondOk_eq_next {d : BitVec 24} {s t : State} :
    respondOk d s = .next t ↔ t = s.logResponse (responseWord (.ok d)) := endCommand_eq_next

theorem whenReady_of_ready {s : State} (h : s.phase = .ready) (k : Answer) : whenReady s k = k := by
  rw [whenReady, h]

theorem whenReady_of_uninit {s : State} (h : s.phase = .uninit) (k : Answer) :
    whenReady s k = .refused .beforeInit := by rw [whenReady, h]

/-- The phase check passes in READY only. -/
theorem whenReady_eq_next {s t : State} {k : Answer} :
    whenReady s k = .next t ↔ s.phase = .ready ∧ k = .next t := by
  cases h : s.phase <;> simp [whenReady, h]

/-- An update ends exactly when the environment answers, with the frame sent and one response given. -/
theorem doUpdate_eq_next {s t : State} :
    doUpdate s = .next t ↔
      ∃ r, s.nextReply = .answer r ∧ t = (sendFrame r s).logResponse (responseWord (endingOfBus r)) := by
  cases h : s.nextReply with
  | answer r => simp [doUpdate, h, endCommand, eq_comm]
  | never => simp [doUpdate, h]

theorem doUpdate_of_answer {s : State} {r : BusResult} (h : s.nextReply = .answer r) :
    doUpdate s = .next ((sendFrame r s).logResponse (responseWord (endingOfBus r))) := by
  rw [doUpdate, h]; rfl

theorem doUpdate_of_never {s : State} (h : s.nextReply = .never) :
    doUpdate s = .fault .busWriteNeverReturns := by rw [doUpdate, h]

/-- The next reply depends on the replies in store and the count of draws only. -/
theorem State.nextReply_congr {s t : State} (h1 : t.replies = s.replies) (h2 : t.draws = s.draws) :
    t.nextReply = s.nextReply := by rw [nextReply, nextReply, h1, h2]

end Sys2Proof.Machine
end

