-- ==== Sys2Proof/Laws/Step.lean ====
section
/-! SUPPORT. One inversion lemma for each command and for the step: if it answers next, then this. -/

namespace Sys2Proof.Machine

theorem execInit_eq_next {n dev : BitVec 16} {s t : State} (h : execInit n dev s = .next t) :
    s.phase = .uninit ∧
    ∃ u r, u = (busOpen (s.construct n dev (List.replicate n.toNat neutralPixel))).makeReady ∧
      u.nextReply = .answer r ∧
      t = (sendFrame r u).logResponse (responseWord (endingOfBus r)) := by
  unfold execInit at h
  split at h
  · obtain ⟨r, hr, ht⟩ := doUpdate_eq_next.1 h
    exact ⟨‹_›, _, r, rfl, hr, ht⟩
  · cases h

theorem execSetmb_eq_next {br : BitVec 16} {s t : State} (h : execSetmb br s = .next t) :
    s.phase = .ready ∧
    ((brightValid (brightOperand br) = true ∧
        t = (s.setBright (brightStored (brightOperand br))).logResponse (responseWord (.ok 0))) ∨
      (brightValid (brightOperand br) = false ∧
        t = s.logResponse (responseWord (.error .invalidArgument)))) := by
  obtain ⟨hp, h⟩ := whenReady_eq_next.1 h
  refine ⟨hp, ?_⟩
  split at h
  · exact .inl ⟨‹_›, respondOk_eq_next.1 h⟩
  · exact .inr ⟨Bool.eq_false_iff.2 ‹_›, raise_eq_next.1 h⟩

theorem execUpdbr_eq_next {br : BitVec 16} {s t : State} (h : execUpdbr br s = .next t) :
    s.phase = .ready ∧
    ((brightValid (brightOperand br) = true ∧ ∃ r, s.nextReply = .answer r ∧
        t = (sendFrame r (pbRescale (brightOperand br).toNat
          (s.setBright (brightStored (brightOperand br))))).logResponse (responseWord (endingOfBus r))) ∨
      (brightValid (brightOperand br) = false ∧
        t = s.logResponse (responseWord (.error .invalidArgument)))) := by
  obtain ⟨hp, h⟩ := whenReady_eq_next.1 h
  refine ⟨hp, ?_⟩
  split at h
  · obtain ⟨r, hr, ht⟩ := doUpdate_eq_next.1 h
    exact .inl ⟨‹_›, r, hr, ht⟩
  · exact .inr ⟨Bool.eq_false_iff.2 ‹_›, raise_eq_next.1 h⟩

theorem execSetpx_eq_next {idx : BitVec 24} {r g b a : Byte} {s t : State}
    (h : execSetpx idx r g b a s = .next t) :
    s.phase = .ready ∧
    ((indexInRange (pixelIndex idx) s.ledCount = true ∧
        t = (s.setPixels (s.pb.modify (pixelIndex idx).toNat
          (Pixel.putNative s.order (nativeOf r g b a s.bright)))).logResponse (responseWord (.ok 0))) ∨
      (indexInRange (pixelIndex idx) s.ledCount = false ∧
        t = s.logResponse (responseWord (.error .outOfRange)))) := by
  obtain ⟨hp, h⟩ := whenReady_eq_next.1 h
  refine ⟨hp, ?_⟩
  rcases pbSet_cases (pixelIndex idx) (nativeOf r g b a s.bright) s with ⟨hi, he⟩ | ⟨hi, he⟩
  · rw [nwrite, he] at h; exact .inr ⟨hi, raise_eq_next.1 h⟩
  · rw [nwrite, he] at h; exact .inl ⟨hi, respondOk_eq_next.1 h⟩

theorem execFill_eq_next {r g b a : Byte} {s t : State} (h : execFill r g b a s = .next t) :
    s.phase = .ready ∧ ∃ x, s.nextReply = .answer x ∧
      t = (sendFrame x (pbFill (nativeOf r g b a s.bright) s)).logResponse
        (responseWord (endingOfBus x)) := by
  obtain ⟨hp, h⟩ := whenReady_eq_next.1 h
  exact ⟨hp, doUpdate_eq_next.1 h⟩

theorem execSetord_eq_next {rp gp bp : BitVec 2} {s t : State} (h : execSetord rp gp bp s = .next t) :
    isPermutation rp gp bp = true ∧ s.phase = .ready ∧
      t = (s.setOrder ⟨rp, gp, bp⟩).logResponse (responseWord (.ok 0)) := by
  unfold execSetord at h
  split at h
  · obtain ⟨hp, h⟩ := whenReady_eq_next.1 h
    exact ⟨‹_›, hp, respondOk_eq_next.1 h⟩
  · cases h

theorem execUpdate_eq_next {s t : State} (h : execUpdate s = .next t) :
    s.phase = .ready ∧ ∃ r, s.nextReply = .answer r ∧
      t = (sendFrame r s).logResponse (responseWord (endingOfBus r)) := by
  obtain ⟨hp, h⟩ := whenReady_eq_next.1 h
  exact ⟨hp, doUpdate_eq_next.1 h⟩

theorem execWheel_eq_next {pos : BitVec 16} {s t : State} (h : execWheel pos s = .next t) :
    t = s.logResponse (responseWord (.ok (wheelData (wheelColor (wheelClamp (wheelOperand pos)))))) :=
  respondOk_eq_next.1 h

/-- A step idles, or runs the command its word decodes to. -/
theorem step_eq_next {s t : State} (h : step s = .next t) :
    (s.pending = [] ∧ t = s) ∨
    ∃ w ws i, s.pending = w :: ws ∧ decode w = .ok i ∧ exec i (s.setPending ws) = .next t := by
  cases hp : s.pending with
  | nil =>
    rw [step, fetch, hp] at h
    exact .inl ⟨rfl, (by simpa [idle] using h.symm)⟩
  | cons w ws =>
    rw [step, fetch, hp] at h
    cases hd : decode w with
    | ok i => simp only [hd] at h; exact .inr ⟨w, ws, i, rfl, hd, h⟩
    | error e => simp [hd] at h

end Sys2Proof.Machine
end

