-- ==== Sys2Proof/Laws/Exec.lean ====
section
/-! SUPPORT. One completion lemma for each way a command ends: the state that `exec` answers, in the named
updates. -/

namespace Sys2Proof.Machine

variable {s : State}

/-- The block as INIT leaves it before its update. -/
def State.initialised (n dev : BitVec 16) (s : State) : State :=
  (busOpen (s.construct n dev (List.replicate n.toNat neutralPixel))).makeReady

/-- INIT's own writes and its `BusOpen` leave the next reply of the bus as it was. -/
theorem State.nextReply_initialised (n dev : BitVec 16) : (s.initialised n dev).nextReply = s.nextReply := rfl

theorem exec_init {n dev : BitVec 16} {r : BusResult} (h : s.phase = .uninit)
    (hr : s.nextReply = .answer r) :
    exec (.init n dev) s =
      .next ((sendFrame r (s.initialised n dev)).logResponse (responseWord (endingOfBus r))) := by
  change execInit n dev s = _
  unfold execInit
  rw [h]
  exact doUpdate_of_answer hr

theorem exec_init_ready {n dev : BitVec 16} (h : s.phase = .ready) :
    exec (.init n dev) s = .refused .initWhenReady := by
  change execInit n dev s = _
  unfold execInit
  rw [h]

theorem exec_setmb {br : BitVec 16} (h : s.phase = .ready) (hv : brightValid (brightOperand br) = true) :
    exec (.setmb br) s =
      .next ((s.setBright (brightStored (brightOperand br))).logResponse (responseWord (.ok 0))) := by
  change execSetmb br s = _
  unfold execSetmb
  rw [whenReady_of_ready h, if_pos hv]; rfl

theorem exec_setmb_invalid {br : BitVec 16} (h : s.phase = .ready)
    (hv : brightValid (brightOperand br) = false) :
    exec (.setmb br) s = .next (s.logResponse (responseWord (.error .invalidArgument))) := by
  change execSetmb br s = _
  unfold execSetmb
  rw [whenReady_of_ready h, if_neg (Bool.eq_false_iff.1 hv)]; rfl

/-- The block as a valid UPDBR leaves it before its update. -/
def State.rescaled (br : BitVec 16) (s : State) : State :=
  pbRescale (brightOperand br).toNat (s.setBright (brightStored (brightOperand br)))

theorem exec_updbr {br : BitVec 16} {r : BusResult} (h : s.phase = .ready)
    (hv : brightValid (brightOperand br) = true) (hr : s.nextReply = .answer r) :
    exec (.updbr br) s =
      .next ((sendFrame r (s.rescaled br)).logResponse (responseWord (endingOfBus r))) := by
  change execUpdbr br s = _
  unfold execUpdbr
  rw [whenReady_of_ready h, if_pos hv]
  exact doUpdate_of_answer hr

theorem exec_updbr_invalid {br : BitVec 16} (h : s.phase = .ready)
    (hv : brightValid (brightOperand br) = false) :
    exec (.updbr br) s = .next (s.logResponse (responseWord (.error .invalidArgument))) := by
  change execUpdbr br s = _
  unfold execUpdbr
  rw [whenReady_of_ready h, if_neg (Bool.eq_false_iff.1 hv)]; rfl

/-- The block with one pixel written. -/
def State.pixelWritten (i : Nat) (v : Native) (s : State) : State :=
  s.setPixels (s.pb.modify i (Pixel.putNative s.order v))

theorem exec_setpx {idx : BitVec 24} {r g b a : Byte} (h : s.phase = .ready)
    (hi : indexInRange (pixelIndex idx) s.ledCount = true) :
    exec (.setpx idx r g b a) s =
      .next ((s.pixelWritten (pixelIndex idx).toNat (nativeOf r g b a s.bright)).logResponse
        (responseWord (.ok 0))) := by
  change execSetpx idx r g b a s = _
  unfold execSetpx
  rw [whenReady_of_ready h, nwrite, pbSet, if_pos hi]; rfl

theorem exec_setpx_outOfRange {idx : BitVec 24} {r g b a : Byte} (h : s.phase = .ready)
    (hi : indexInRange (pixelIndex idx) s.ledCount = false) :
    exec (.setpx idx r g b a) s = .next (s.logResponse (responseWord (.error .outOfRange))) := by
  change execSetpx idx r g b a s = _
  unfold execSetpx
  rw [whenReady_of_ready h, nwrite, pbSet, if_neg (Bool.eq_false_iff.1 hi)]; rfl

theorem exec_fill {r g b a : Byte} {x : BusResult} (h : s.phase = .ready) (hr : s.nextReply = .answer x) :
    exec (.fill r g b a) s =
      .next ((sendFrame x (pbFill (nativeOf r g b a s.bright) s)).logResponse
        (responseWord (endingOfBus x))) := by
  change execFill r g b a s = _
  unfold execFill
  rw [whenReady_of_ready h]
  exact doUpdate_of_answer hr

theorem exec_setord {rp gp bp : BitVec 2} (h : s.phase = .ready) (hp : isPermutation rp gp bp = true) :
    exec (.setord rp gp bp) s = .next ((s.setOrder ⟨rp, gp, bp⟩).logResponse (responseWord (.ok 0))) := by
  change execSetord rp gp bp s = _
  unfold execSetord
  rw [whenReady_of_ready h, if_pos hp]; rfl

theorem exec_update {r : BusResult} (h : s.phase = .ready) (hr : s.nextReply = .answer r) :
    exec .update s = .next ((sendFrame r s).logResponse (responseWord (endingOfBus r))) := by
  change execUpdate s = _
  unfold execUpdate
  rw [whenReady_of_ready h]
  exact doUpdate_of_answer hr

theorem exec_wheel {pos : BitVec 16} :
    exec (.wheel pos) s =
      .next (s.logResponse (responseWord (.ok (wheelData (wheelColor (wheelClamp (wheelOperand pos))))))) :=
  rfl

end Sys2Proof.Machine
end

