-- ==== Sys2Proof/Laws/Gamma.lean ====
section
/-! SUPPORT. The gamma table has an entry for every index. -/

namespace Sys2Proof.Machine

theorem gammaTable_length : gammaTable.length = 256 := by
  simp only [gammaTable, List.length_append]; rfl

/-- Reading `G` reads the table, never the default. -/
theorem gamma_eq_getElem (i : BitVec 8) :
    gamma i = gammaTable[i.toNat]'(gammaTable_length ▸ i.isLt) := by
  rw [gamma, List.getD_eq_getElem?_getD, List.getElem?_eq_getElem, Option.getD_some]

theorem gamma_mem (i : BitVec 8) : gamma i ∈ gammaTable := by
  rw [gamma_eq_getElem]; exact List.getElem_mem _

end Sys2Proof.Machine
end

