-- ==== Sys2Proof/Laws/PerInstr.lean ====
section
/-! SUPPORT. Facts stated of every command, one lemma for each constructor of `Instr`. -/

namespace Sys2Proof.Laws.OpcodeField

/-- The opcode field of a command's word holds the opcode R82 assigns to the command. -/
def Statement (i : Instr) : Prop := opField (encode i) = i.opcode

/-- The four bits above a payload are the opcode, whatever the payload. -/
theorem opField_append (op : BitVec 4) (p : BitVec 60) : opField (op ++ p) = op := by
  rw [opField, field]
  ext k hk
  rw [BitVec.getElem_extractLsb', BitVec.getLsbD_append, if_neg (by omega), Nat.add_sub_cancel_left,
    BitVec.getLsbD_eq_getElem hk]

theorem init (led dev : BitVec 16) : Statement (.init led dev) := opField_append _ _
theorem setmb (br : BitVec 16) : Statement (.setmb br) := opField_append _ _
theorem updbr (br : BitVec 16) : Statement (.updbr br) := opField_append _ _
theorem setpx (idx : BitVec 24) (r g b a : Byte) : Statement (.setpx idx r g b a) := opField_append _ _
theorem fill (r g b a : Byte) : Statement (.fill r g b a) := opField_append _ _
theorem setord (rp gp bp : BitVec 2) : Statement (.setord rp gp bp) := opField_append _ _
theorem update : Statement .update := opField_append _ _
theorem wheel (pos : BitVec 16) : Statement (.wheel pos) := opField_append _ _

end Sys2Proof.Laws.OpcodeField
end

