-- ==== Sys2Proof/Tests/Slice0.lean ====
section
/-! SUPPORT. The model's own tests, each with the place in spec/ its expected value comes from, and for
every statement with hypotheses a state and operands that meet them. -/

namespace Sys2Proof.Tests

open Sys2Proof.Machine

/-! ### Well-formedness (R89, R92): an ill-formed term for each check -/

theorem test_wf_refuses_position_three :
    (Instr.setord 3 1 2).wf = false ∧ (Instr.setord 0 3 2).wf = false ∧ (Instr.setord 0 1 3).wf = false := by
  decide

theorem test_wf_refuses_repeated_positions :
    (Instr.setord 1 1 2).wf = false ∧ (Instr.setord 1 0 1).wf = false ∧ (Instr.setord 0 2 2).wf = false := by
  decide

/-- The six permutations of `95_test_vectors.md` 2.3. -/
theorem test_wf_accepts_the_six_permutations :
    [(0, 1, 2), (1, 0, 2), (1, 2, 0), (0, 2, 1), (2, 0, 1), (2, 1, 0)].all
      (fun (p : BitVec 2 × BitVec 2 × BitVec 2) => (Instr.setord p.1 p.2.1 p.2.2).wf) = true := by decide

/-! ### Decoding: words written out from R81's bit positions, or taken from `95_test_vectors.md` -/

/-- `LEDCOUNT = w[31:16]`, `DEV = w[15:0]`. -/
theorem test_decode_init :
    decode 0b0001000000000000000000000000000010000000000000010000000000000111 =
      .ok (.init 0x8001 0x0007) := by decide

/-- `BR = w[15:0]`; 2.6: 0xF99A is -1638. -/
theorem test_decode_setmb :
    decode 0b0010000000000000000000000000000000000000000000001111100110011010 =
      .ok (asmSetmb (-1638)) := by decide

theorem test_decode_updbr :
    decode 0b0011000000000000000000000000000000000000000000000100000000000000 =
      .ok (.updbr 0x4000) := by decide

/-- `IDX = w[55:32]`, `R = w[31:24]`, `G = w[23:16]`, `B = w[15:8]`, `A = w[7:0]`. -/
theorem test_decode_setpx :
    decode 0b0100000010000000000000000000001100010001001000100011001101000100 =
      .ok (.setpx 0x800003 0x11 0x22 0x33 0x44) := by decide

/-- 2.3: `SETPX -1, 1,2,3,4`. -/
theorem test_decode_setpx_negative : decode 0x40FFFFFF01020304 = .ok (asmSetpx (-1) 1 2 3 4) := by decide

theorem test_decode_fill :
    decode 0b0101000000000000000000000000000000010001001000100011001101000100 =
      .ok (.fill 0x11 0x22 0x33 0x44) := by decide

/-- `OR = w[5:4]`, `OG = w[3:2]`, `OB = w[1:0]`; 2.3: BRG is 0x6000000000000018. -/
theorem test_decode_setord :
    decode 0b0110000000000000000000000000000000000000000000000000000000011000 =
      .ok asmSetordBRG := by decide

theorem test_decode_update :
    decode 0b0111000000000000000000000000000000000000000000000000000000000000 = .ok .update := by decide

/-- `POS = w[15:0]`; 2.8: `WHEEL -5` is 0x800000000000FFFB. -/
theorem test_decode_wheel : decode 0x800000000000FFFB = .ok (asmWheel (-5)) := by decide

/-- `95_test_vectors.md` 2.3, 2.5, 2.9: the reserved words. -/
theorem test_decode_reserved :
    decode 0x0000000000000000 = .error .reservedOpcode ∧
    decode 0x9000000000000000 = .error .reservedOpcode ∧
    decode 0xF000000000000000 = .error .reservedOpcode ∧
    decode 0x6000000000000000 = .error .orderNotPermutation ∧
    decode 0x600000000000001B = .error .orderNotPermutation ∧
    decode 0x6000000000000052 = .error .mustBeZeroBitSet ∧
    decode 0x2000000000012000 = .error .mustBeZeroBitSet ∧
    decode 0x1000000100020000 = .error .mustBeZeroBitSet ∧
    decode 0x7000000000000001 = .error .mustBeZeroBitSet ∧
    decode 0x4100000001020304 = .error .mustBeZeroBitSet := by decide

/-- `95_test_vectors.md` P1 to P3: the words of commands as the assembler writes them. -/
theorem test_encode_words :
    encode (asmInit 2 1) = 0x1000000000020001 ∧
    encode (asmUpdbr 0x2000) = 0x3000000000002000 ∧
    encode (asmSetpxRgb 0 10 20 30) = 0x400000000A141EFF ∧
    encode asmAllOff = 0x50000000000000FF ∧
    encode asmSetordRGB = 0x6000000000000006 ∧
    encode asmSetordGRB = 0x6000000000000012 ∧
    encode (asmWheel 200) = 0x80000000000000C8 := by decide

/-- The table's numbering: bit 0 is the least significant bit of the word (R8). -/
theorem test_decodeTableWord : decodeTableWord 64 0x1000000000020001 = some (.init 2 1) := by decide

/-! ### The gamma table and the gamma index (`95_test_vectors.md` 2.1, 2.2) -/

theorem test_gamma_spots :
    [gamma 0, gamma 27, gamma 28, gamma 43, gamma 44, gamma 100, gamma 127, gamma 128, gamma 234, gamma 235,
      gamma 254, gamma 255] =
    [0x80, 0x80, 0x81, 0x81, 0x82, 0x8C, 0x96, 0x97, 0xE6, 0xE8, 0xFE, 0xFF] := by decide

theorem test_gammaIndex_vectors :
    [gammaIndex 255 255 16384, gammaIndex 255 255 8192, gammaIndex 255 128 16384, gammaIndex 255 255 16383,
      gammaIndex 200 100 4096, gammaIndex 255 255 1, gammaIndex 0 255 16384] =
    [255, 127, 128, 254, 19, 0, 0] := by decide

/-! ### Commands -/

/-- The state a command answers. -/
def after : Answer → Option State
  | .next s    => some s
  | .fault _   => none
  | .refused _ => none

/-- A READY block with the given buffer, order GRB, brightness 1.0, device 5, handle 7; the environment
answers the next write `ok` and the one after it `err 7`. -/
def ready (px : List Pixel) : State :=
  { State.reset with
    phase := .ready, ledCount := BitVec.ofNat 16 px.length, device := 5, pb := px, handle := ⟨7⟩
    opens := [⟨5, busConfig {}, ⟨7⟩⟩], replies := [.answer .ok, .answer (.err 7 3)] }

/-- The reset block with the same replies in store. -/
def fresh : State := { State.reset with replies := [.answer .ok, .answer (.err 7 3)] }

def neutral2 : List Pixel := [neutralPixel, neutralPixel]

/-- R160: `INIT 2, 0` leaves two neutral pixels, READY, order and brightness kept. -/
theorem test_init_state :
    (after (exec (asmInit 2 0) fresh)).map (fun t => (t.phase, t.ledCount, t.pb, t.order, t.bright)) =
      some (.ready, 2, neutral2, ⟨1, 0, 2⟩, 16384) := by decide

/-- R160, P1: its frame is `80 80 80 80 80 80 00 00`, its response 0. -/
theorem test_init_frame :
    (after (exec (asmInit 2 0) fresh)).map (fun t => (t.bus.map (·.bytes), t.responses)) =
      some ([[0x80, 0x80, 0x80, 0x80, 0x80, 0x80, 0, 0]], [0]) := by decide

/-- R162: `SETMB 0x2000` stores 8192 and rewrites nothing. -/
theorem test_setmb_half :
    (after (exec (.setmb 0x2000) (ready [⟨0x97, 0xFF, 0x84⟩]))).map
      (fun t => (t.bright, t.pb, t.bus, t.responses)) =
      some (8192, [⟨0x97, 0xFF, 0x84⟩], [], [0]) := by decide

/-- 2.6: 0x4000 is valid; 0x4001, 0x8000 and 0xFFFF are not (status 2, brightness kept). -/
theorem test_setmb_ends :
    ([0x4000, 0x4001, 0x8000, 0xFFFF] : List (BitVec 16)).map
      (fun br => (after (exec (.setmb br) (ready []))).map fun t => (t.bright, t.responses)) =
      [some (16384, [0]), some (16384, [0x02000000]), some (16384, [0x02000000]),
        some (16384, [0x02000000])] := by decide

/-- R164: `(97, FF, 84)` at 0.5 is `(4B, 7F, 42)`, sent as `4B 7F 42 00 00`. -/
theorem test_updbr_half :
    (after (exec (.updbr 0x2000) (ready [⟨0x97, 0xFF, 0x84⟩]))).map
      (fun t => (t.bright, t.pb, t.bus.map (·.bytes), t.responses)) =
      some (8192, [⟨0x4B, 0x7F, 0x42⟩], [[0x4B, 0x7F, 0x42, 0, 0]], [0]) := by decide

/-- 2.7: the rescale of single bytes. -/
theorem test_rescale_vectors :
    [rescaleByte 16384 0xFF, rescaleByte 16383 0xFF, rescaleByte 16383 0x80, rescaleByte 12288 0x80,
      rescaleByte 4096 0x81, rescaleByte 8192 0x01, rescaleByte 0 0xFF] =
    [0xFF, 0xFE, 0x7F, 0x60, 0x20, 0x00, 0x00] := by decide

/-- R128 item 3 (D00 §8.6): order GRB, `(10, 20, 30)` gives `(80, 80, 81)`; nothing is sent. -/
theorem test_setpx_order :
    (after (exec (asmSetpxRgb 0 10 20 30) (ready [⟨1, 2, 3⟩, ⟨4, 5, 6⟩]))).map
      (fun t => (t.pb, t.bus, t.responses)) =
      some ([⟨0x80, 0x80, 0x81⟩, ⟨4, 5, 6⟩], [], [0]) := by decide

/-- 2.3: with `N = 2` the indices -1 and 2 answer status 1 and write nothing. -/
theorem test_setpx_outOfRange :
    ([-1, 2] : List Int).map
      (fun i => (after (exec (asmSetpx i 1 2 3 4) (ready neutral2))).map fun t => (t.pb, t.responses)) =
      [some (neutral2, [0x01000000]), some (neutral2, [0x01000000])] := by decide

/-- 2.4: `FILL 255,0,0,255` under GRB sends `80 FF 80 80 FF 80 00 00`. -/
theorem test_fill_red :
    (after (exec (.fill 255 0 0 255) (ready [⟨1, 2, 3⟩, ⟨4, 5, 6⟩]))).map
      (fun t => (t.pb, t.bus.map (·.bytes))) =
      some ([⟨0x80, 0xFF, 0x80⟩, ⟨0x80, 0xFF, 0x80⟩], [[0x80, 0xFF, 0x80, 0x80, 0xFF, 0x80, 0, 0]]) := by decide

/-- P4: a failed write answers status 3 with the value the bus gave; the buffer is filled all the same. -/
theorem test_fill_transport_error :
    (after (exec (.fill 255 0 0 255) { ready [neutralPixel] with replies := [.answer (.err 7 2)] })).map
      (fun t => (t.pb, t.responses, t.bus.map Transaction.received)) =
      some ([⟨0x80, 0xFF, 0x80⟩], [0x03000007], [[0x80, 0xFF]]) := by decide

/-- R166, 2.3: SETORD.BRG, then `SETPX 1, 255,128,64,255`: `(84, FF, 97)`; the old pixel stays. -/
theorem test_setord_brg :
    ((after (exec asmSetordBRG (ready neutral2))).bind fun t =>
      after (exec (.setpx 1 255 128 64 255) t)).map (fun t => (t.order, t.pb)) =
      some (⟨1, 2, 0⟩, [neutralPixel, ⟨0x84, 0xFF, 0x97⟩]) := by decide

/-- R144: the worked example of UPDATE. -/
theorem test_update_frame :
    (after (exec .update (ready [⟨0x80, 0xFF, 0x80⟩, ⟨0x80, 0x80, 0xFF⟩]))).map
      (fun t => (t.bus, t.responses)) =
      some ([⟨⟨7⟩, [0x80, 0xFF, 0x80, 0x80, 0x80, 0xFF, 0, 0], .ok⟩], [0]) := by decide

/-- P6: refused in UNINIT. -/
theorem test_update_before_init : exec .update State.reset = .refused .beforeInit := rfl

/-- 2.8: response data of WHEEL, before INIT as well (P6). -/
theorem test_wheel_vectors :
    ([-32768, 0, 1, 64, 127, 128, 129, 200, 255, 256, 300, 383, 384, 385] : List Int).map
      (fun p => (after (exec (asmWheel p) State.reset)).map (·.responses)) =
      [0x7F0000, 0x7F0000, 0x7E0100, 0x3F4000, 0x007F00, 0x007F00, 0x007E01, 0x003748, 0x00007F, 0x00007F,
        0x2C0053, 0x7F0000, 0x7F0000, 0x7F0000].map (fun d => some [d]) := by decide

/-- The step runs the word that the host presents (P6: `WHEEL 200` at reset). -/
theorem test_step_withFetchWord :
    (after (step (State.reset.withFetchWord 64 0x80000000000000C8))).map (fun t => (t.pending, t.responses)) =
      some ([], [0x003748]) := by decide

/-- INIT runs as the first command after reset, whatever the environment answers. -/
theorem test_step_init_from_reset :
    (after (step (State.reset.withFetchWord 64 0x1000000000010000))).map (fun t => (t.phase, t.pb)) =
      some (.ready, [neutralPixel]) := by decide

/-! ### Witnesses: states and operands that meet the hypotheses of the statements -/

theorem ready_inv (px : List Pixel) (h : px.length < 65536) : (ready px).Inv where
  order := rfl
  bright := by change (16384 : BitVec 15).toNat ≤ 16384; decide
  pixels _ := by change px.length = (BitVec.ofNat 16 px.length).toNat; rw [BitVec.toNat_ofNat]; omega
  noPixels h := nomatch h

theorem reset_inv : State.reset.Inv where
  order := rfl
  bright := by change (16384 : BitVec 15).toNat ≤ 16384; decide
  pixels h := nomatch h
  noPixels _ := rfl

theorem ready_busInv (px : List Pixel) : (ready px).BusInv where
  before h := nomatch h
  opened _ := rfl
  frames _ h := nomatch h

theorem ready_native : (ready neutral2).NativePixels := by
  have h80 : (0x80 : Byte) ∈ gammaTable := gamma_mem 0
  intro px hpx v hv
  have hpx : px = neutralPixel := by simpa [ready, neutral2] using hpx
  subst hpx
  have hv : v = 0x80 := by simpa [neutralPixel, Pixel.bytes] using hv
  exact hv ▸ h80

theorem reply_ready (px : List Pixel) : (ready px).nextReply = .answer .ok := rfl

theorem witness_DecodeOfEncode : (Instr.setord 2 0 1).wf = true := by decide

theorem witness_EncodeOfDecode : decode 0x6000000000000021 = .ok (.setord 2 0 1) := by decide

theorem witness_ReservedOpcodesAreRefused :
    ((ready []).present 0).pending = [0] ∧ opField 0 = 0 ∧
    (opField 0x9000000000000000).toNat = 9 ∧ (opField 0xFFFFFFFFFFFFFFFF).toNat = 15 := by decide

/-- The lowest and the highest `Z` bit of SETPX and of UPDATE. -/
theorem witness_MustBeZeroBitsAreRefused :
    ∃ x ∈ opcodeRows, ∃ y ∈ opcodeRows,
      (opField 0x4100000000000000 = opField x.pattern ∧ 0x4100000000000000 &&& x.mask ≠ x.pattern ∧
        0x4800000000000000 &&& x.mask ≠ x.pattern) ∧
      (opField 0x7000000000000001 = opField y.pattern ∧ 0x7000000000000001 &&& y.mask ≠ y.pattern ∧
        0x7800000000000000 &&& y.mask ≠ y.pattern) :=
  ⟨⟨"SETPX", 0x4000000000000000, 0xFF00000000000000⟩, by decide,
    ⟨"UPDATE", 0x7000000000000000, 0xFFFFFFFFFFFFFFFF⟩, by decide, by decide⟩

theorem witness_NonPermutationsAreRefused :
    ¬(({(1 : BitVec 2).toNat, (1 : BitVec 2).toNat, (2 : BitVec 2).toNat} : Finset Nat) = {0, 1, 2}) ∧
    (State.reset.present (encode (.setord 1 1 2))).pending = encode (.setord 1 1 2) :: [] := by decide

theorem witness_StepRunsTheDecodedCommand :
    (State.reset.present 0x80000000000000C8).pending = 0x80000000000000C8 :: [] ∧
    decode 0x80000000000000C8 = .ok (.wheel 200) := by decide

theorem witness_NoCommandNoEffect : State.reset.pending = [] := rfl

theorem witness_GammaIndexIsTheFlooredProduct :
    (16384 : BitVec 15).toNat ≤ 16384 ∧ (0 : BitVec 15).toNat ≤ 16384 := by decide

/-- In range at 0 and at `N - 1`, out of range at -1 and at `N`. -/
theorem witness_SetpxWritesOnePixel :
    State.reset.phase = .uninit ∧ (ready neutral2).Inv ∧ (ready neutral2).phase = .ready ∧
    (0 : BitVec 24).toInt = 0 ∧ (1 : BitVec 24).toInt < ((ready neutral2).ledCount.toNat : Int) ∧
    (0xFFFFFF : BitVec 24).toInt < 0 ∧ ((ready neutral2).ledCount.toNat : Int) ≤ (2 : BitVec 24).toInt :=
  ⟨rfl, ready_inv _ (by decide), rfl, by decide, by decide, by decide, by decide⟩

theorem witness_SetpxFrame :
    (∃ t, exec (.setpx 1 1 2 3 4) (ready neutral2) = .next t) ∧
    (∃ t, exec (.setpx 2 1 2 3 4) (ready neutral2) = .next t) ∧
    indexInRange (pixelIndex 2) (ready neutral2).ledCount = false :=
  ⟨⟨_, exec_setpx rfl (by decide)⟩, ⟨_, exec_setpx_outOfRange rfl (by decide)⟩, by decide⟩

theorem witness_SetpxRoundTrip :
    (ready neutral2).Inv ∧ (ready neutral2).phase = .ready ∧ (ready neutral2).bright = 16384 ∧
    1 < (ready neutral2).ledCount.toNat := ⟨ready_inv _ (by decide), rfl, rfl, by decide⟩

theorem witness_SetpxOffIsNeutral :
    (ready neutral2).Inv ∧ (ready neutral2).phase = .ready ∧ 1 < (ready neutral2).ledCount.toNat :=
  ⟨ready_inv _ (by decide), rfl, by decide⟩

theorem witness_FillWritesEveryPixelAndSends :
    State.reset.phase = .uninit ∧ (ready neutral2).Inv ∧ (ready neutral2).phase = .ready ∧
    (ready neutral2).nextReply = .answer .ok := ⟨rfl, ready_inv _ (by decide), rfl, rfl⟩

theorem witness_FillIsTheLoopOfPixelWrites : (ready neutral2).pb.length = (ready neutral2).ledCount.toNat := by
  decide

theorem witness_AllOffSendsNeutralFrame :
    (ready neutral2).Inv ∧ (ready neutral2).phase = .ready ∧ (ready neutral2).nextReply = .answer .ok :=
  ⟨ready_inv _ (by decide), rfl, rfl⟩

theorem witness_FrameLayout : (ready neutral2).Inv ∧ (ready neutral2).phase = .ready :=
  ⟨ready_inv _ (by decide), rfl⟩

theorem witness_NativeFramesHaveNoLatchByte :
    (ready neutral2).NativePixels ∧ 5 < 3 * (ready neutral2).pb.length := ⟨ready_native, by decide⟩

/-- A reply of each kind: `ok`, and `err` with a value. -/
theorem witness_UpdateSendsOneFrame :
    State.reset.phase = .uninit ∧ (ready neutral2).phase = .ready ∧ (ready neutral2).nextReply = .answer .ok ∧
    ({ ready neutral2 with replies := [.answer (.err 7 3)] } : State).nextReply = .answer (.err 7 3) :=
  ⟨rfl, rfl, rfl, rfl⟩

theorem witness_UpdateFrame : ∃ t, exec .update (ready neutral2) = .next t :=
  ⟨_, exec_update rfl (reply_ready _)⟩

theorem witness_RepeatedUpdatesSendTheSameFrame :
    ∃ t u, exec .update (ready neutral2) = .next t ∧ exec .update t = .next u :=
  ⟨_, _, exec_update rfl (reply_ready _), exec_update (r := .err 7 3) rfl rfl⟩

theorem witness_UnansweredWritesNeverFinish :
    ({ State.reset with replies := [.never] } : State).nextReply = .never ∧ State.reset.phase = .uninit ∧
    ({ ready neutral2 with replies := [.never] } : State).nextReply = .never ∧
    brightValid (brightOperand 0x4000) = true := by decide

theorem witness_BusResultDoesNotReachTheBlock :
    ∃ t u, exec .update { ready neutral2 with replies := [.answer .ok] } = .next t ∧
      exec .update { ready neutral2 with replies := [.answer (.err 7 3)] } = .next u :=
  ⟨_, _, exec_update (r := .ok) rfl rfl, exec_update (r := .err 7 3) rfl rfl⟩

theorem witness_FailedWritesDeliverAPrefix :
    (Transaction.mk ⟨7⟩ [0x80, 0, 0] .ok).result = .ok ∧ [0x80] <+: ([0x80, 0, 0] : List Byte) :=
  ⟨rfl, [0, 0], rfl⟩

/-- A listed reply, and at reset the free result that stands for none. -/
theorem witness_InitConstructsTheBlock :
    (ready []).phase = .ready ∧ fresh.phase = .uninit ∧ fresh.nextReply = .answer .ok ∧
    State.reset.nextReply = .answer (Config.busResult 0) := ⟨rfl, rfl, rfl, rfl⟩

/-- Valid at 0 and 16384, invalid at -1 and 16385 (R162). -/
theorem witness_SetmbStoresAValidBrightness :
    State.reset.phase = .uninit ∧ (ready neutral2).phase = .ready ∧ (0 : BitVec 16).toInt = 0 ∧
    (0x4000 : BitVec 16).toInt = 16384 ∧ (0xFFFF : BitVec 16).toInt < 0 ∧
    16384 < (0x4001 : BitVec 16).toInt := by decide

theorem witness_UpdbrRescalesEveryByteAndSends :
    State.reset.phase = .uninit ∧ (ready neutral2).phase = .ready ∧ (0 : BitVec 16).toInt = 0 ∧
    (0x4000 : BitVec 16).toInt = 16384 ∧ (0xFFFF : BitVec 16).toInt < 0 ∧
    16384 < (0x4001 : BitVec 16).toInt ∧ (ready neutral2).nextReply = .answer .ok ∧
    (ready neutral2).readByte 5 = some 0x80 := by decide

/-- Each clause: a byte that is not zero under 16383, a factor of 8192, a factor of 0. -/
theorem witness_RescaleLosesTheHighBit :
    16383 < 16384 ∧ 1 ≤ (0x80 : Byte).toNat ∧ 8192 < 16384 ∧ 0 < 16384 := by decide

theorem witness_UpdbrByOneKeepsTheBytes :
    (ready neutral2).phase = .ready ∧ (ready neutral2).nextReply = .answer .ok := ⟨rfl, rfl⟩

theorem witness_UpdbrCompounds :
    (ready neutral2).phase = .ready ∧ (0x2000 : BitVec 16).toInt = 8192 ∧
    (∃ t u, exec (.updbr 0x2000) (ready neutral2) = .next t ∧ exec (.updbr 0x2000) t = .next u) ∧
    (ready neutral2).readByte 0 = some 0x80 :=
  ⟨rfl, by decide,
    ⟨_, _, exec_updbr rfl (by decide) (reply_ready _), exec_updbr (r := .err 7 3) rfl (by decide) rfl⟩, by decide⟩

theorem witness_SetordReplacesTheOrder :
    ({(1 : BitVec 2).toNat, (2 : BitVec 2).toNat, (0 : BitVec 2).toNat} : Finset Nat) = {0, 1, 2} ∧
    State.reset.phase = .uninit ∧ (ready neutral2).phase = .ready := by decide

theorem witness_PresetsSpellTheByteOrder : (ready neutral2).phase = .ready := rfl

theorem witness_RegisterCommandsFrame :
    (∃ t, exec (.setmb 0x2000) (ready neutral2) = .next t) ∧
    (∃ t, exec (.setord 1 2 0) (ready neutral2) = .next t) ∧
    (∃ t, exec (.wheel 200) (ready neutral2) = .next t) :=
  ⟨⟨_, exec_setmb rfl (by decide)⟩, ⟨_, exec_setord rfl (by decide)⟩, ⟨_, exec_wheel⟩⟩

theorem witness_RewritingCommandsFrame :
    (State.reset.Inv ∧ ∃ t, exec (.init 2 0) State.reset = .next t) ∧
    (ready neutral2).Inv ∧ (∃ t, exec (.fill 1 2 3 4) (ready neutral2) = .next t) ∧
    (∃ t, exec (.updbr 0x2000) (ready neutral2) = .next t) ∧
    (∃ t, exec (.updbr 0x4001) (ready neutral2) = .next t) ∧
    brightValid (brightOperand 0x4001) = false :=
  ⟨⟨reset_inv, _, exec_init rfl rfl⟩, ready_inv _ (by decide), ⟨_, exec_fill rfl (reply_ready _)⟩,
    ⟨_, exec_updbr rfl (by decide) (reply_ready _)⟩, ⟨_, exec_updbr_invalid rfl (by decide)⟩, by decide⟩

/-- Each segment's ends and the clamp: positions 0, 127, 128, 255, 256, 383, 384, and outside. -/
theorem witness_WheelRespondsWithItsColour :
    (0xFFFB : BitVec 16).toInt ≤ 0 ∧ 384 ≤ (0x0180 : BitVec 16).toInt ∧
    (0x007F : BitVec 16).toInt = (127 : Nat) ∧ (0x0080 : BitVec 16).toInt = 128 + (0 : Nat) ∧
    (0x00FF : BitVec 16).toInt = 128 + (127 : Nat) ∧ (0x0100 : BitVec 16).toInt = 256 + (0 : Nat) ∧
    (0x017F : BitVec 16).toInt = 256 + (127 : Nat) := by decide

theorem witness_WheelIsContinuous : 384 ≤ 384 ∧ 383 ≤ 383 := by decide

theorem witness_StepKeepsTheInvariant :
    ((ready neutral2).present 0x7000000000000000).Inv ∧
    ∃ t, step ((ready neutral2).present 0x7000000000000000) = .next t :=
  ⟨⟨rfl, (ready_inv neutral2 (by decide)).bright, (ready_inv neutral2 (by decide)).pixels, fun h => nomatch h⟩,
    _, exec_update (r := .ok) rfl rfl⟩

theorem witness_StepKeepsTheBusInvariant :
    ((ready neutral2).present 0x7000000000000000).Inv ∧ ((ready neutral2).present 0x7000000000000000).BusInv ∧
    ∃ t, step ((ready neutral2).present 0x7000000000000000) = .next t :=
  ⟨witness_StepKeepsTheInvariant.1, ⟨(nomatch ·), fun _ => rfl, fun _ h => nomatch h⟩,
    witness_StepKeepsTheInvariant.2⟩

theorem witness_StepKeepsNativePixels :
    ((ready neutral2).present 0x3000000000004000).NativePixels ∧
    (∃ t, step ((ready neutral2).present 0x3000000000004000) = .next t) ∧
    decode 0x3000000000004000 = .ok (.updbr 0x4000) ∧ lowersBytes (.updbr 0x4000) = false :=
  ⟨ready_native, ⟨_, exec_updbr (br := 0x4000) (r := .ok) rfl (by decide) rfl⟩, by decide, by decide⟩

theorem witness_ConstructionIsFinal :
    ((ready neutral2).present 0x7000000000000000).phase = .ready ∧
    ∃ t, step ((ready neutral2).present 0x7000000000000000) = .next t :=
  ⟨rfl, witness_StepKeepsTheInvariant.2⟩

theorem witness_OnlyTheNamedCommandsWrite : ∃ t, exec .update (ready neutral2) = .next t := witness_UpdateFrame

theorem witness_OnlyUpdatesPublish :
    (∃ t, exec .update (ready neutral2) = .next t) ∧ publishes .update = true ∧
    (∃ t, exec (.wheel 0) (ready neutral2) = .next t) ∧ publishes (.wheel 0) = false ∧
    (∃ t, exec (.updbr 0xFFFF) (ready neutral2) = .next t) ∧ brightValid (brightOperand 0xFFFF) = false :=
  ⟨witness_UpdateFrame, rfl, ⟨_, exec_wheel⟩, rfl, ⟨_, exec_updbr_invalid rfl (by decide)⟩, by decide⟩

theorem witness_OneResponsePerCommand :
    ((ready neutral2).present 0x7000000000000000).pending = 0x7000000000000000 :: [] ∧
    ∃ t, step ((ready neutral2).present 0x7000000000000000) = .next t :=
  ⟨rfl, witness_StepKeepsTheInvariant.2⟩

/-- A state for each error: SETPX at `N`, SETMB at 16385, UPDATE with an `err` reply. -/
theorem witness_ErrorsHaveTheirStatedCauses :
    (∃ t, exec (.setpx 2 1 2 3 4) (ready neutral2) = .next t) ∧
    (∃ t, exec (.setmb 0x4001) (ready neutral2) = .next t) ∧
    (∃ t, exec .update { ready neutral2 with replies := [.answer (.err 7 3)] } = .next t) :=
  ⟨⟨_, exec_setpx_outOfRange rfl (by decide)⟩, ⟨_, exec_setmb_invalid rfl (by decide)⟩,
    ⟨_, exec_update (r := .err 7 3) rfl rfl⟩⟩

theorem witness_ValidationErrorsChangeNothing :
    (∃ t, exec (.setpx 2 1 2 3 4) (ready neutral2) = .next t ∧
      Responded (.error .outOfRange) (ready neutral2) t) ∧
    (∃ t, exec (.updbr 0x4001) (ready neutral2) = .next t ∧
      Responded (.error .invalidArgument) (ready neutral2) t) :=
  ⟨⟨_, exec_setpx_outOfRange rfl (by decide), rfl, rfl⟩, ⟨_, exec_updbr_invalid rfl (by decide), rfl, rfl⟩⟩

/-- One of each kind of command, run twice. -/
theorem witness_RepeatingSetCommandsChangesNothing :
    (ready neutral2).Inv ∧
    (∃ t u, exec (.setpx 1 1 2 3 4) (ready neutral2) = .next t ∧ exec (.setpx 1 1 2 3 4) t = .next u) ∧
    (∃ t u, exec (.setmb 0) (ready neutral2) = .next t ∧ exec (.setmb 0) t = .next u) ∧
    (∃ t u, exec (.setord 2 1 0) (ready neutral2) = .next t ∧ exec (.setord 2 1 0) t = .next u) :=
  ⟨ready_inv _ (by decide), ⟨_, _, exec_setpx rfl (by decide), exec_setpx rfl (by decide)⟩,
    ⟨_, _, exec_setmb rfl (by decide), exec_setmb rfl (by decide)⟩,
    ⟨_, _, exec_setord rfl (by decide), exec_setord rfl (by decide)⟩⟩

/-- UPDATE from READY and INIT from reset. -/
theorem witness_BusSpeedIsReadByNoRule :
    (∃ t, exec .update (ready neutral2) = .next t) ∧ (∀ n dev, Instr.update ≠ .init n dev) ∧
    ∃ t, exec (.init 2 0) State.reset = .next t :=
  ⟨witness_UpdateFrame, fun _ _ h => (nomatch h), _, exec_init rfl rfl⟩

/-- R6: an instance with another bus clock opens its bus with it. -/
theorem test_init_bus_speed :
    (after (exec (.init 1 0) (State.resetWith ⟨2000000⟩))).map
      (fun t => t.opens.map (fun c => (c.device, c.config))) = some [(0, ⟨0, none, 2000000⟩)] := by decide

end Sys2Proof.Tests
end

section
/-! PROOFS. The bus clock parameter and the commands (R6, R201): only `busConfig`, in INIT's `BusOpen`, reads
it, and no command writes it. -/

namespace Sys2Proof.Machine

/-- The block `s` as the instance with parameters `p` would hold it (notes/assumptions/13.md). -/
def State.withParams (p : Params) (s : State) : State := { s with params := p }

variable {s t : State}

/-- Each way a command other than INIT ends is decided by fields that the parameters leave alone, and the updates
it ends with write the other fields only; so the same completion applies under the other parameters. -/
theorem exec_withParams {i : Instr} (p : Params) (hi : ∀ n dev, i ≠ .init n dev) (h : exec i s = .next t) :
    exec i (s.withParams p) = .next (t.withParams p) := by
  cases i with
  | init n dev => exact absurd rfl (hi n dev)
  | setmb br =>
    obtain ⟨hp, ⟨hv, rfl⟩ | ⟨hv, rfl⟩⟩ := execSetmb_eq_next h
    · exact exec_setmb hp hv
    · exact exec_setmb_invalid hp hv
  | updbr br =>
    obtain ⟨hp, ⟨hv, r, hr, rfl⟩ | ⟨hv, rfl⟩⟩ := execUpdbr_eq_next h
    · exact exec_updbr hp hv hr
    · exact exec_updbr_invalid hp hv
  | setpx idx r g b a =>
    obtain ⟨hp, ⟨hx, rfl⟩ | ⟨hx, rfl⟩⟩ := execSetpx_eq_next h
    · exact exec_setpx hp hx
    · exact exec_setpx_outOfRange hp hx
  | fill r g b a =>
    obtain ⟨hp, x, hx, rfl⟩ := execFill_eq_next h
    exact exec_fill hp hx
  | setord rp gp bp =>
    obtain ⟨hperm, hp, rfl⟩ := execSetord_eq_next h
    exact exec_setord hp hperm
  | update =>
    obtain ⟨hp, r, hr, rfl⟩ := execUpdate_eq_next h
    exact exec_update hp hr
  | wheel pos =>
    obtain rfl := execWheel_eq_next h
    exact exec_wheel

/-- A completed INIT found the block in UNINIT and sent its frame from the initialised block. -/
theorem exec_init_eq_next {n dev : BitVec 16} (h : exec (.init n dev) s = .next t) :
    s.phase = .uninit ∧ ∃ r, s.nextReply = .answer r ∧
      t = (sendFrame r (s.initialised n dev)).logResponse (responseWord (endingOfBus r)) := by
  obtain ⟨hp, _, r, rfl, hr, ht⟩ := execInit_eq_next h
  exact ⟨hp, r, hr, ht⟩

/-- A transaction's bytes and result do not depend on the handle it was sent under. -/
theorem sendFrame_bus_bytes_result (r : BusResult) (s : State) :
    (sendFrame r s).bus.map (fun z => (z.bytes, z.result)) =
      s.bus.map (fun z => (z.bytes, z.result)) ++ [(encodeFrame s.pb, r)] := by
  simp [sendFrame]

end Sys2Proof.Machine
end

section
open Sys2Proof Sys2Proof.Machine

/-- Settles O55: outside INIT the completion is the same; INIT completes with the same answer of the bus, and the
handle that may differ is in neither the bytes nor the result of its frame. -/
theorem busSpeedIsReadByNoRule : Obligations.BusSpeedIsReadByNoRule := by
  unfold Obligations.BusSpeedIsReadByNoRule
  intro s t p
  refine ⟨fun i hi h => exec_withParams p hi h, fun n dev h => ?_⟩
  obtain ⟨hp, r, hr, rfl⟩ := exec_init_eq_next h
  have hbus : (sendFrame r ((s.withParams p).initialised n dev)).bus.map (fun z => (z.bytes, z.result)) =
      (sendFrame r (s.initialised n dev)).bus.map (fun z => (z.bytes, z.result)) := by
    rw [sendFrame_bus_bytes_result, sendFrame_bus_bytes_result]; rfl
  exact ⟨_, exec_init (s := s.withParams p) hp hr, rfl, rfl, rfl, rfl, rfl, rfl, rfl, rfl, rfl, rfl, hbus⟩
end

section
/-! PROOFS. What a completing command does, said once for all commands: it writes the block (`Writes`), and then
ends with its frame or without one and with its response (`Ends`). The rules of `10_state.md` about the state read
off these two. -/

namespace Sys2Proof.Machine

variable {s t u : State} {i : Instr}

/-! ### The two parts of a completing command -/

/-- What command `i` in state `s` has made of the block when it comes to its end: one constructor for each way to
complete. -/
inductive Writes (s : State) : Instr → State → Prop where
  | init (n dev : BitVec 16) (hp : s.phase = .uninit) : Writes s (.init n dev) (s.initialised n dev)
  | setmb (br : BitVec 16) (hp : s.phase = .ready) (hv : brightValid (brightOperand br) = true) :
      Writes s (.setmb br) (s.setBright (brightStored (brightOperand br)))
  | setmbInvalid (br : BitVec 16) (hp : s.phase = .ready) (hv : brightValid (brightOperand br) = false) :
      Writes s (.setmb br) s
  | updbr (br : BitVec 16) (hp : s.phase = .ready) (hv : brightValid (brightOperand br) = true) :
      Writes s (.updbr br) (s.rescaled br)
  | updbrInvalid (br : BitVec 16) (hp : s.phase = .ready) (hv : brightValid (brightOperand br) = false) :
      Writes s (.updbr br) s
  | setpx (idx : BitVec 24) (r g b a : Byte) (hp : s.phase = .ready)
      (hi : indexInRange (pixelIndex idx) s.ledCount = true) :
      Writes s (.setpx idx r g b a) (s.pixelWritten (pixelIndex idx).toNat (nativeOf r g b a s.bright))
  | setpxOutOfRange (idx : BitVec 24) (r g b a : Byte) (hp : s.phase = .ready)
      (hi : indexInRange (pixelIndex idx) s.ledCount = false) : Writes s (.setpx idx r g b a) s
  | fill (r g b a : Byte) (hp : s.phase = .ready) :
      Writes s (.fill r g b a) (pbFill (nativeOf r g b a s.bright) s)
  | setord (rp gp bp : BitVec 2) (hp : s.phase = .ready) (hperm : isPermutation rp gp bp = true) :
      Writes s (.setord rp gp bp) (s.setOrder ⟨rp, gp, bp⟩)
  | update (hp : s.phase = .ready) : Writes s .update s
  | wheel (pos : BitVec 16) : Writes s (.wheel pos) s

/-- The end of a command from the block `s` it has written: one frame and its response where `sends`, the response
alone where not. -/
inductive Ends (s : State) : (sends : Bool) → State → Prop where
  | sent (r : BusResult) (hr : s.nextReply = .answer r) :
      Ends s true ((sendFrame r s).logResponse (responseWord (endingOfBus r)))
  | quiet (en : Ending) : Ends s false (s.logResponse (responseWord en))

/-- The commands that send a frame when they complete: those that publish (R62), an UPDBR only when its operand is
valid (R164). -/
def sendsFrame : Instr → Bool
  | .updbr br => brightValid (brightOperand br)
  | i         => publishes i

/-- A command that publishes sends its frame, an UPDBR if its operand is valid. -/
theorem sendsFrame_of_publishes (hpub : publishes i = true)
    (hv : ∀ br, i = .updbr br → brightValid (brightOperand br) = true) : sendsFrame i = true := by
  cases i with
  | updbr br => exact hv br rfl
  | _ => exact hpub

/-- Every other command, and an UPDBR whose operand is not valid, sends none. -/
theorem sendsFrame_eq_false
    (h : publishes i = false ∨ ∃ br, i = .updbr br ∧ brightValid (brightOperand br) = false) :
    sendsFrame i = false := by
  obtain hpub | ⟨br, rfl, hv⟩ := h
  · cases i with
    | updbr br => cases hpub
    | _ => exact hpub
  · exact hv

/-- A command that completes writes the block and ends. -/
theorem exec_eq_next (h : exec i s = .next t) : ∃ u, Writes s i u ∧ Ends u (sendsFrame i) t := by
  cases i with
  | init n dev =>
    obtain ⟨hp, r, hr, rfl⟩ := exec_init_eq_next h
    exact ⟨_, .init n dev hp, .sent r hr⟩
  | setmb br =>
    obtain ⟨hp, ⟨hv, rfl⟩ | ⟨hv, rfl⟩⟩ := execSetmb_eq_next h
    · exact ⟨_, .setmb br hp hv, .quiet _⟩
    · exact ⟨_, .setmbInvalid br hp hv, .quiet _⟩
  | updbr br =>
    obtain ⟨hp, ⟨hv, r, hr, rfl⟩ | ⟨hv, rfl⟩⟩ := execUpdbr_eq_next h
    · exact ⟨_, .updbr br hp hv, by rw [sendsFrame, hv]; exact .sent r hr⟩
    · exact ⟨_, .updbrInvalid br hp hv, by rw [sendsFrame, hv]; exact .quiet _⟩
  | setpx idx r g b a =>
    obtain ⟨hp, ⟨hi, rfl⟩ | ⟨hi, rfl⟩⟩ := execSetpx_eq_next h
    · exact ⟨_, .setpx idx r g b a hp hi, .quiet _⟩
    · exact ⟨_, .setpxOutOfRange idx r g b a hp hi, .quiet _⟩
  | fill r g b a =>
    obtain ⟨hp, x, hx, rfl⟩ := execFill_eq_next h
    exact ⟨_, .fill r g b a hp, .sent x hx⟩
  | setord rp gp bp =>
    obtain ⟨hperm, hp, rfl⟩ := execSetord_eq_next h
    exact ⟨_, .setord rp gp bp hp hperm, .quiet _⟩
  | update =>
    obtain ⟨hp, r, hr, rfl⟩ := execUpdate_eq_next h
    exact ⟨_, .update hp, .sent r hr⟩
  | wheel pos =>
    obtain rfl := execWheel_eq_next h
    exact ⟨_, .wheel pos, .quiet _⟩

/-- The end of a command leaves the block as it was written. -/
theorem Ends.sameBlock {sends : Bool} (h : Ends s sends t) : SameBlock s t := by
  cases h with
  | sent r => exact ⟨⟨rfl, rfl, rfl, rfl, rfl⟩, rfl, rfl, rfl⟩
  | quiet en => exact ⟨⟨rfl, rfl, rfl, rfl, rfl⟩, rfl, rfl, rfl⟩

theorem Ends.opens {sends : Bool} (h : Ends s sends t) : t.opens = s.opens := by
  cases h with
  | sent r => rfl
  | quiet en => rfl

/-- A frame sent at the end is of the buffer and under the handle that the command leaves. -/
theorem Ends.bus_of_sent (h : Ends s true t) : ∃ r, t.bus = s.bus ++ [⟨t.handle, encodeFrame t.pb, r⟩] := by
  cases h with
  | sent r => exact ⟨r, rfl⟩

theorem Ends.bus_of_quiet (h : Ends s false t) : t.bus = s.bus := by
  cases h with
  | quiet en => rfl

/-- Taking the next word from the port does not touch the block. -/
theorem sameBlock_setPending (ws : List Word) : SameBlock s (s.setPending ws) :=
  ⟨⟨rfl, rfl, rfl, rfl, rfl⟩, rfl, rfl, rfl⟩

/-- A property that only the block decides is kept by a step when every command the step can run keeps it while
writing the block. -/
theorem step_keeps {P : State → Prop} (hP : ∀ {a b : State}, SameBlock a b → P a → P b) (hs : P s)
    (h : step s = .next t)
    (hw : ∀ w ws i u, s.pending = w :: ws → decode w = .ok i → P (s.setPending ws) →
      Writes (s.setPending ws) i u → P u) : P t := by
  obtain ⟨-, rfl⟩ | ⟨w, ws, i, hpend, hdec, he⟩ := step_eq_next h
  · exact hs
  · obtain ⟨u, hu, hend⟩ := exec_eq_next he
    exact hP hend.sameBlock (hw w ws i u hpend hdec (hP (sameBlock_setPending ws) hs) hu)

theorem SameConstruction.trans (h : SameConstruction s u) (h' : SameConstruction u t) : SameConstruction s t :=
  ⟨h'.params.trans h.params, h'.phase.trans h.phase, h'.ledCount.trans h.ledCount, h'.device.trans h.device,
    h'.handle.trans h.handle⟩

/-! ### R20: which command writes which item -/

theorem Writes.bus (h : Writes s i u) : u.bus = s.bus := by
  cases h with
  | _ => rfl

theorem Writes.params (h : Writes s i u) : u.params = s.params := by
  cases h with
  | _ => rfl

theorem Writes.order (h : Writes s i u) (hi : ∀ rp gp bp, i ≠ .setord rp gp bp) : u.order = s.order := by
  cases h with
  | setord rp gp bp => exact absurd rfl (hi rp gp bp)
  | _ => rfl

theorem Writes.bright (h : Writes s i u) (hm : ∀ br, i ≠ .setmb br) (hu : ∀ br, i ≠ .updbr br) :
    u.bright = s.bright := by
  cases h with
  | setmb br => exact absurd rfl (hm br)
  | updbr br => exact absurd rfl (hu br)
  | _ => rfl

theorem Writes.pb (h : Writes s i u) (hi : ∀ n dev, i ≠ .init n dev)
    (hx : ∀ idx r g b a, i ≠ .setpx idx r g b a) (hf : ∀ r g b a, i ≠ .fill r g b a)
    (hu : ∀ br, i ≠ .updbr br) : u.pb = s.pb := by
  cases h with
  | init n dev => exact absurd rfl (hi n dev)
  | setpx idx r g b a => exact absurd rfl (hx idx r g b a)
  | fill r g b a => exact absurd rfl (hf r g b a)
  | updbr br => exact absurd rfl (hu br)
  | _ => rfl

theorem Writes.sameConstruction (h : Writes s i u) (hi : ∀ n dev, i ≠ .init n dev) : SameConstruction s u := by
  cases h with
  | init n dev => exact absurd rfl (hi n dev)
  | _ => exact ⟨rfl, rfl, rfl, rfl, rfl⟩

/-- Only INIT opens the bus. -/
theorem Writes.opens (h : Writes s i u) (hi : ∀ n dev, i ≠ .init n dev) : u.opens = s.opens := by
  cases h with
  | init n dev => exact absurd rfl (hi n dev)
  | _ => rfl

/-- Only INIT sizes the buffer (R21). -/
theorem Writes.pb_length (h : Writes s i u) (hi : ∀ n dev, i ≠ .init n dev) : u.pb.length = s.pb.length := by
  cases h with
  | init n dev => exact absurd rfl (hi n dev)
  | setpx idx r g b a => exact List.length_modify ..
  | fill r g b a => exact pbFill_length _ _
  | updbr br => exact pbRescale_length _ _
  | _ => rfl

/-- INIT completes in UNINIT only (R161 (c)). -/
theorem Writes.ne_init (h : Writes s i u) (hp : s.phase = .ready) (n dev : BitVec 16) : i ≠ .init n dev := by
  rintro rfl
  cases h with
  | init _ _ hp' => rw [hp] at hp'; cases hp'

/-! ### R29 items 1 to 3 -/

theorem State.Inv.of_sameBlock (h : SameBlock s t) (hs : s.Inv) : t.Inv := by
  obtain ⟨⟨-, hphase, hcount, -, -⟩, horder, hbright, hpb⟩ := h
  constructor
  · rw [horder]; exact hs.order
  · rw [hbright]; exact hs.bright
  · rw [hphase, hpb, hcount]; exact hs.pixels
  · rw [hphase, hpb]; exact hs.noPixels

theorem brightStored_le {q : Int} (h : brightValid q = true) : (brightStored q).toNat ≤ 16384 := by
  have hq := ((brightValid_iff q).1 h).2
  have hst := brightStored_toNat h
  omega

/-- SETORD stores a permutation only (R89). -/
theorem Writes.order_legal (h : Writes s i u) (hs : s.order.legal) : u.order.legal := by
  cases h with
  | setord rp gp bp hp hperm => exact hperm
  | _ => exact hs

/-- SETMB and UPDBR store a valid brightness only (R162, R164). -/
theorem Writes.bright_le (h : Writes s i u) (hs : s.bright.toNat ≤ 16384) : u.bright.toNat ≤ 16384 := by
  cases h with
  | setmb br hp hv => exact brightStored_le hv
  | updbr br hp hv => exact brightStored_le hv
  | _ => exact hs

/-- INIT makes the buffer of its `N` pixels; any other command keeps phase, `N` and the buffer's length, and with
no buffer writes none. -/
theorem State.Inv.of_writes (h : Writes s i u) (hs : s.Inv) : u.Inv := by
  by_cases hi : ∃ n dev, i = .init n dev
  · obtain ⟨n, dev, rfl⟩ := hi
    cases h with
    | init _ _ hp => exact ⟨hs.order, hs.bright, fun _ => List.length_replicate, (nomatch ·)⟩
  · have hi : ∀ n dev, i ≠ .init n dev := fun n dev e => hi ⟨n, dev, e⟩
    obtain ⟨-, hphase, hcount, -, -⟩ := h.sameConstruction hi
    have hlen := h.pb_length hi
    refine ⟨h.order_legal hs.order, h.bright_le hs.bright, fun hp => ?_, fun hp => ?_⟩
    · rw [hlen, hcount]; exact hs.pixels (hphase ▸ hp)
    · rw [hs.noPixels (hphase ▸ hp)] at hlen
      exact List.eq_nil_of_length_eq_zero hlen

/-! ### R29 item 4 -/

theorem State.NativePixels.of_sameBlock (h : SameBlock s t) (hs : s.NativePixels) : t.NativePixels := by
  unfold State.NativePixels
  rw [h.pb]; exact hs

/-- A pixel written with the native value of a colour has gamma entries where it had them (R123). -/
theorem Pixel.putNative_nativeOf_mem {px : Pixel} (h : ∀ v ∈ px.bytes, v ∈ gammaTable) (o : ChannelOrder)
    (r g b a : Byte) (q : BitVec 15) : ∀ v ∈ (px.putNative o (nativeOf r g b a q)).bytes, v ∈ gammaTable := by
  intro v hv
  obtain hv | rfl | rfl | rfl := Pixel.mem_bytes_putNative hv
  · exact h v hv
  · exact gamma_mem _
  · exact gamma_mem _
  · exact gamma_mem _

/-- The neutral bytes are `G[0]` (R21, R113). -/
theorem neutralPixel_mem : ∀ v ∈ neutralPixel.bytes, v ∈ gammaTable := by
  have h0 : (0x80 : Byte) ∈ gammaTable := gamma_mem 0
  simpa [neutralPixel, Pixel.bytes] using h0

theorem rescaleByte_one (v : Byte) : rescaleByte 16384 v = v := by
  have h : (v.toNat * 16384) >>> 14 = v.toNat := by rw [Nat.shiftRight_eq_div_pow]; omega
  rw [rescaleByte, h, BitVec.ofNat_toNat, BitVec.setWidth_eq]

theorem Pixel.rescale_one (px : Pixel) : px.rescale 16384 = px := by
  rw [Pixel.rescale, rescaleByte_one, rescaleByte_one, rescaleByte_one]

/-- UPDBR by 1.0 leaves the buffer (R164). -/
theorem State.rescaled_pb_of_one {br : BitVec 16} (h : brightOperand br = 16384) : (s.rescaled br).pb = s.pb := by
  have hid : Pixel.rescale (brightOperand br).toNat = id := by rw [h]; exact funext Pixel.rescale_one
  change s.pb.map (Pixel.rescale (brightOperand br).toNat) = s.pb
  rw [hid, List.map_id]

/-- A valid UPDBR that does not lower bytes is the one by 1.0. -/
theorem brightOperand_eq_one {br : BitVec 16} (hv : brightValid (brightOperand br) = true)
    (hl : lowersBytes (.updbr br) = false) : brightOperand br = 16384 := by
  have hle := ((brightValid_iff _).1 hv).2
  have hge : ¬ brightOperand br < 16384 := by simpa [lowersBytes, hv] using hl
  omega

theorem State.NativePixels.pixelWritten_nativeOf (hs : s.NativePixels) (k : Nat) (r g b a : Byte) (q : BitVec 15) :
    (s.pixelWritten k (nativeOf r g b a q)).NativePixels := by
  intro px hpx
  change px ∈ s.pb.modify k _ at hpx
  obtain ⟨j, hj, rfl⟩ := List.getElem_of_mem hpx
  rw [List.getElem_modify]
  split
  · exact Pixel.putNative_nativeOf_mem (hs _ (List.getElem_mem _)) _ _ _ _ _ _
  · exact hs _ (List.getElem_mem _)

theorem State.NativePixels.pbFill_nativeOf (hs : s.NativePixels) (r g b a : Byte) (q : BitVec 15) :
    (pbFill (nativeOf r g b a q) s).NativePixels := by
  intro px hpx
  obtain ⟨px', hpx', rfl⟩ := List.mem_map.1 hpx
  exact Pixel.putNative_nativeOf_mem (hs px' hpx') _ _ _ _ _ _

/-- INIT, SETPX and FILL write gamma entries; an UPDBR by 1.0 leaves the bytes; no other command touches them. -/
theorem State.NativePixels.of_writes (h : Writes s i u) (hl : lowersBytes i = false) (hs : s.NativePixels) :
    u.NativePixels := by
  cases h with
  | init n dev =>
    intro px hpx
    rw [List.eq_of_mem_replicate hpx]
    exact neutralPixel_mem
  | setpx idx r g b a => exact hs.pixelWritten_nativeOf _ r g b a _
  | fill r g b a => exact hs.pbFill_nativeOf r g b a _
  | updbr br hp hv =>
    unfold State.NativePixels
    rw [State.rescaled_pb_of_one (brightOperand_eq_one hv hl)]; exact hs
  | _ => exact hs

/-! ### The reset state -/

theorem inv_resetWith (p : Params) : (State.resetWith p).Inv where
  order := rfl
  bright := Nat.le_refl 16384
  pixels h := nomatch h
  noPixels _ := rfl

theorem busInv_resetWith (p : Params) : (State.resetWith p).BusInv where
  before _ := ⟨rfl, rfl⟩
  opened h := nomatch h
  frames _ h := nomatch h

theorem nativePixels_resetWith (p : Params) : (State.resetWith p).NativePixels := fun _ h => nomatch h

end Sys2Proof.Machine
end

section
open Sys2Proof Sys2Proof.Machine

/-- Settles O44: `Inv` speaks of the block only, and whatever a command writes keeps it. -/
theorem stepKeepsTheInvariant : Obligations.StepKeepsTheInvariant := by
  unfold Obligations.StepKeepsTheInvariant
  intro s t hs h
  exact step_keeps State.Inv.of_sameBlock hs h fun _ _ _ _ _ _ hinv hw => .of_writes hw hinv

/-- Settles O46: the same for the bytes of the buffer, where an UPDBR that lowers nothing is the one by 1.0. -/
theorem stepKeepsNativePixels : Obligations.StepKeepsNativePixels := by
  unfold Obligations.StepKeepsNativePixels
  intro s t hs h hl
  exact step_keeps State.NativePixels.of_sameBlock hs h fun w ws i _ hpend hdec hnat hw =>
    .of_writes hw (hl w ws i hpend hdec) hnat

/-- Settles O47: in READY the command a step runs is not INIT, and no other writes any of these. -/
theorem constructionIsFinal : Obligations.ConstructionIsFinal := by
  unfold Obligations.ConstructionIsFinal
  intro s t hp h
  obtain ⟨-, rfl⟩ | ⟨w, ws, i, -, -, he⟩ := step_eq_next h
  · exact ⟨⟨rfl, rfl, rfl, rfl, rfl⟩, rfl, rfl⟩
  · obtain ⟨u, hu, hend⟩ := exec_eq_next he
    have hi := hu.ne_init hp
    obtain ⟨hc, -, -, hpb⟩ := hend.sameBlock
    refine ⟨?_, ?_, ?_⟩
    · exact (sameBlock_setPending ws).construction.trans ((hu.sameConstruction hi).trans hc)
    · exact hend.opens.trans (hu.opens hi)
    · rw [hpb]; exact hu.pb_length hi

/-- Settles O48, item by item: the end of a command leaves the block, and `Writes` names the writers. -/
theorem onlyTheNamedCommandsWrite : Obligations.OnlyTheNamedCommandsWrite := by
  unfold Obligations.OnlyTheNamedCommandsWrite
  intro i s t h
  obtain ⟨u, hu, hend⟩ := exec_eq_next h
  obtain ⟨hc, horder, hbright, hpb⟩ := hend.sameBlock
  refine ⟨fun ho => ?_, fun hm hub => ?_, fun hi hx hf hub => ?_, fun hi => ?_, ?_⟩
  · exact horder.trans (hu.order ho)
  · exact hbright.trans (hu.bright hm hub)
  · exact hpb.trans (hu.pb hi hx hf hub)
  · exact (hu.sameConstruction hi).trans hc
  · exact hc.params.trans hu.params

/-- Settles O49: only the end of a command writes the bus, and `sendsFrame` says how it ends. -/
theorem onlyUpdatesPublish : Obligations.OnlyUpdatesPublish := by
  unfold Obligations.OnlyUpdatesPublish
  intro i s t h
  obtain ⟨u, hu, hend⟩ := exec_eq_next h
  rw [← hu.bus]
  refine ⟨fun hpub hvalid => ?_, fun hquiet => ?_⟩
  · rw [sendsFrame_of_publishes hpub hvalid] at hend
    exact hend.bus_of_sent
  · rw [sendsFrame_eq_false hquiet] at hend
    exact hend.bus_of_quiet

/-- Settles O11: `State.resetWith` states these values. -/
theorem resetLeavesTheStatedValues : Obligations.ResetLeavesTheStatedValues := by
  unfold Obligations.ResetLeavesTheStatedValues
  exact ⟨rfl, fun p => ⟨rfl, rfl, rfl, rfl, rfl, rfl⟩⟩

/-- Settles O38: each preset completes in READY with its positions in `ORDER`, where `PB_SET` puts the bytes. -/
theorem presetsSpellTheByteOrder : Obligations.PresetsSpellTheByteOrder := by
  unfold Obligations.PresetsSpellTheByteOrder
  intro s v px hp
  refine ⟨⟨_, exec_setord hp (by decide), ?_⟩, ⟨_, exec_setord hp (by decide), ?_⟩,
    ⟨_, exec_setord hp (by decide), ?_⟩⟩
  · rfl
  · rfl
  · rfl

/-- Settles O43; `State.reset` is the reset state with the default parameters. -/
theorem resetMeetsTheInvariants : Obligations.ResetMeetsTheInvariants := by
  unfold Obligations.ResetMeetsTheInvariants
  exact ⟨inv_resetWith _, busInv_resetWith _, nativePixels_resetWith _,
    fun p => ⟨inv_resetWith p, busInv_resetWith p, nativePixels_resetWith p⟩⟩
end

section
/-! PROOFS. The rules of `20_memory.md` about the buffer: its frame (R53), what the commands leave alone (R57), and
the commands that may be repeated (R59). -/

namespace Sys2Proof.Machine

variable {s t u : State} {i : Instr}

/-! ### R53: the frame as a sequence of bytes -/

theorem Pixel.exists_byteAt (px : Pixel) {p : Nat} (hp : p < 3) : ∃ v, px.byteAt p = some v :=
  ⟨px.bytes[p], List.getElem?_eq_getElem hp⟩

/-- The first pixel's bytes lead the frame. -/
theorem encodeFrame_cons (x : Pixel) (xs : List Pixel) : encodeFrame (x :: xs) = x.bytes ++ encodeFrame xs := rfl

/-- After a pixel's three bytes the frame is that of the other pixels. -/
theorem encodeFrame_cons_getElem?_add (x : Pixel) (xs : List Pixel) (k : Nat) :
    (encodeFrame (x :: xs))[k + 3]? = (encodeFrame xs)[k]? := rfl

/-- The pixels stand in the frame in buffer order, three bytes each. -/
theorem encodeFrame_getElem?_pixel {px : List Pixel} {k p : Nat} (hk : k < px.length) (hp : p < 3) :
    (encodeFrame px)[3 * k + p]? = px[k].byteAt p := by
  induction px generalizing k with
  | nil => cases hk
  | cons x xs ih =>
    cases k with
    | zero =>
      rw [Nat.mul_zero, Nat.zero_add, encodeFrame_cons, List.getElem?_append_left hp]; rfl
    | succ k =>
      have hat : 3 * (k + 1) + p = 3 * k + p + 3 := by omega
      rw [hat, encodeFrame_cons_getElem?_add]
      exact ih (Nat.lt_of_succ_lt_succ hk)

/-- Behind the pixels stands the trailer. -/
theorem encodeFrame_getElem?_trailer (px : List Pixel) (k : Nat) :
    (encodeFrame px)[3 * px.length + k]? = trailer[k]? := by
  induction px with
  | nil => rw [List.length_nil, Nat.mul_zero, Nat.zero_add]; rfl
  | cons x xs ih =>
    have hat : 3 * (x :: xs).length + k = 3 * xs.length + k + 3 := by rw [List.length_cons]; omega
    rw [hat, encodeFrame_cons_getElem?_add, ih]

/-- The frame carries the bytes of the linear view (R52). -/
theorem encodeFrame_getElem?_eq_readByte {k p : Nat} (hk : k < s.pb.length) (hp : p < 3) :
    (encodeFrame s.pb)[3 * k + p]? = s.readByte (pixelAddr k + p) := by
  rw [encodeFrame_getElem?_pixel hk hp, s.readByte_pixelAddr k p hp, List.getElem?_eq_getElem hk, Option.bind_some]

/-- Every address of the buffer reads a byte. -/
theorem State.exists_readByte {k p : Nat} (hk : k < s.pb.length) (hp : p < 3) :
    ∃ v, s.readByte (pixelAddr k + p) = some v := by
  rw [s.readByte_pixelAddr k p hp, List.getElem?_eq_getElem hk]
  exact Pixel.exists_byteAt _ hp

/-! ### R57: what a completing command leaves alone -/

theorem Writes.pending (h : Writes s i u) : u.pending = s.pending := by
  cases h with
  | _ => rfl

theorem Ends.pending {sends : Bool} (h : Ends s sends t) : t.pending = s.pending := by
  cases h with
  | sent r => rfl
  | quiet en => rfl

/-- A running command takes no further word from the port (R80). -/
theorem exec_pending (h : exec i s = .next t) : t.pending = s.pending := by
  obtain ⟨u, hu, hend⟩ := exec_eq_next h
  exact hend.pending.trans hu.pending

/-- Only INIT opens the bus. -/
theorem exec_opens (h : exec i s = .next t) (hi : ∀ n dev, i ≠ .init n dev) : t.opens = s.opens := by
  obtain ⟨u, hu, hend⟩ := exec_eq_next h
  exact hend.opens.trans (hu.opens hi)

theorem SameBus.trans (h : SameBus s u) (h' : SameBus u t) : SameBus s t :=
  ⟨h'.bus.trans h.bus, h'.opens.trans h.opens, h'.replies.trans h.replies, h'.draws.trans h.draws⟩

/-- Writing the block has no part in the bus, INIT's `BusOpen` apart. -/
theorem Writes.sameBus (h : Writes s i u) (hi : ∀ n dev, i ≠ .init n dev) : SameBus s u := by
  cases h with
  | init n dev => exact absurd rfl (hi n dev)
  | _ => exact ⟨rfl, rfl, rfl, rfl⟩

theorem Ends.sameBus_of_quiet (h : Ends s false t) : SameBus s t := by
  cases h with
  | quiet en => exact ⟨rfl, rfl, rfl, rfl⟩

/-- A command that sends no frame has no part in the bus. -/
theorem exec_sameBus_of_quiet (h : exec i s = .next t) (hq : sendsFrame i = false) : SameBus s t := by
  obtain ⟨u, hu, hend⟩ := exec_eq_next h
  rw [hq] at hend
  have hi : ∀ n dev, i ≠ .init n dev := by rintro n dev rfl; cases hq
  exact (hu.sameBus hi).trans hend.sameBus_of_quiet

/-- A command that publishes nothing and is no SETPX writes registers only. -/
theorem exec_frame_of_not_publishes (h : exec i s = .next t) (hq : publishes i = false)
    (hx : ∀ idx r g b a, i ≠ .setpx idx r g b a) :
    SameConstruction s t ∧ SameBytes s t ∧ SameBus s t ∧ t.pending = s.pending := by
  obtain ⟨-, -, hpb, hconstr, -⟩ := onlyTheNamedCommandsWrite i s t h
  have hinit : ∀ n dev, i ≠ .init n dev := by rintro n dev rfl; cases hq
  have hfill : ∀ r g b a, i ≠ .fill r g b a := by rintro r g b a rfl; cases hq
  have hupdbr : ∀ br, i ≠ .updbr br := by rintro br rfl; cases hq
  exact ⟨hconstr hinit, State.readByte_congr (hpb hinit hx hfill hupdbr),
    exec_sameBus_of_quiet h (sendsFrame_eq_false (.inl hq)), exec_pending h⟩

/-- An UPDBR whose operand is not valid leaves the block (R164). -/
theorem exec_updbr_invalid_sameBlock {br : BitVec 16} (h : exec (.updbr br) s = .next t)
    (hv : brightValid (brightOperand br) = false) : SameBlock s t := by
  obtain ⟨u, hu, hend⟩ := exec_eq_next h
  cases hu with
  | updbr _ _ hv' => rw [hv] at hv'; cases hv'
  | updbrInvalid => exact hend.sameBlock

/-- INIT's buffer has the `N` pixels of its operand. -/
theorem exec_init_pb_length {n dev : BitVec 16} (h : exec (.init n dev) s = .next t) :
    t.pb.length = n.toNat := by
  obtain ⟨-, r, -, rfl⟩ := exec_init_eq_next h
  exact List.length_replicate

/-- No other command sizes the buffer (R21). -/
theorem exec_pb_length (h : exec i s = .next t) (hi : ∀ n dev, i ≠ .init n dev) :
    t.pb.length = s.pb.length := by
  obtain ⟨u, hu, hend⟩ := exec_eq_next h
  rw [hend.sameBlock.pb, hu.pb_length hi]

/-- In either phase the buffer ends at or below address `3*N`. -/
theorem State.Inv.pb_length_le (hs : s.Inv) : s.pb.length ≤ s.ledCount.toNat := by
  cases hp : s.phase with
  | uninit => rw [hs.noPixels hp]; exact Nat.zero_le _
  | ready => exact (hs.pixels hp).le

/-- Beyond both buffers two states read the same: nothing. -/
theorem readByte_eq_of_length_le {n addr : Nat} (hs : s.pb.length ≤ n) (ht : t.pb.length ≤ n)
    (h : pixelAddr n ≤ addr) : t.readByte addr = s.readByte addr := by
  unfold pixelAddr at h
  rw [State.readByte_eq_none (by omega), State.readByte_eq_none (by omega)]

/-- A command other than INIT leaves what lies above the buffer. -/
theorem exec_readByte_above (hs : s.Inv) (h : exec i s = .next t) (hi : ∀ n dev, i ≠ .init n dev) {addr : Nat}
    (ha : pixelAddr s.ledCount.toNat ≤ addr) : t.readByte addr = s.readByte addr :=
  readByte_eq_of_length_le hs.pb_length_le ((exec_pb_length h hi).trans_le hs.pb_length_le) ha

/-! ### R59: SETPX, SETMB and SETORD done again -/

/-- Under a legal order a second write of the same value to the same pixel writes what stands there. -/
theorem State.pixelWritten_again (ho : s.order.legal) (k : Nat) (v : Native) :
    (s.pixelWritten k v).pixelWritten k v = s.pixelWritten k v := by
  have hput : Pixel.putNative s.order v ∘ Pixel.putNative s.order v = Pixel.putNative s.order v :=
    funext fun px => Pixel.putNative_eq _ px s.order v ho
  have hpb : (s.pb.modify k (Pixel.putNative s.order v)).modify k (Pixel.putNative s.order v) =
      s.pb.modify k (Pixel.putNative s.order v) := by rw [List.modify_modify_eq, hput]
  exact congrArg s.setPixels hpb

/-- After a SETPX the same SETPX only responds: in range it writes the same pixel, out of range it raises again. -/
theorem exec_setpx_again {idx : BitVec 24} {r g b a : Byte} (ho : s.order.legal)
    (h : exec (.setpx idx r g b a) s = .next t) :
    ∃ w, exec (.setpx idx r g b a) t = .next (t.logResponse w) := by
  obtain ⟨hp, ⟨hi, ht⟩ | ⟨hi, rfl⟩⟩ := execSetpx_eq_next h
  · have hback : t.pixelWritten (pixelIndex idx).toNat (nativeOf r g b a t.bright) = t := by
      rw [ht]; exact congrArg (State.logResponse _) (State.pixelWritten_again ho _ _)
    have hp' : t.phase = .ready := by rw [ht]; exact hp
    have hi' : indexInRange (pixelIndex idx) t.ledCount = true := by rw [ht]; exact hi
    have hrun := exec_setpx (r := r) (g := g) (b := b) (a := a) hp' hi'
    rw [hback] at hrun
    exact ⟨_, hrun⟩
  · exact ⟨_, exec_setpx_outOfRange hp hi⟩

/-- After a SETMB the same SETMB only responds. -/
theorem exec_setmb_again {br : BitVec 16} (h : exec (.setmb br) s = .next t) :
    ∃ w, exec (.setmb br) t = .next (t.logResponse w) := by
  obtain ⟨hp, ⟨hv, rfl⟩ | ⟨hv, rfl⟩⟩ := execSetmb_eq_next h
  · exact ⟨_, exec_setmb hp hv⟩
  · exact ⟨_, exec_setmb_invalid hp hv⟩

/-- After a SETORD the same SETORD only responds. -/
theorem exec_setord_again {rp gp bp : BitVec 2} (h : exec (.setord rp gp bp) s = .next t) :
    ∃ w, exec (.setord rp gp bp) t = .next (t.logResponse w) := by
  obtain ⟨hperm, hp, rfl⟩ := execSetord_eq_next h
  exact ⟨_, exec_setord hp hperm⟩

/-- A response alone is in neither the block nor the bus. -/
theorem sameBlock_and_sameBus_logResponse (w : RespWord) :
    SameBlock s (s.logResponse w) ∧ SameBus s (s.logResponse w) :=
  ⟨⟨⟨rfl, rfl, rfl, rfl, rfl⟩, rfl, rfl, rfl⟩, rfl, rfl, rfl, rfl⟩

end Sys2Proof.Machine
end

section
open Sys2Proof Sys2Proof.Machine

/-- Settles O23: the pixels' bytes by their place in the buffer, the trailer behind them; `Inv` gives the buffer its
`N` pixels. -/
theorem frameLayout : Obligations.FrameLayout := by
  unfold Obligations.FrameLayout
  intro s hs hp
  rw [← hs.pixels hp]
  refine ⟨encodeFrame_length _, fun k hk p hlt => ?_, encodeFrame_getElem?_trailer _ 0,
    encodeFrame_getElem?_trailer _ 1⟩
  obtain ⟨v, hv⟩ := State.exists_readByte hk hlt
  exact ⟨v, hv, (encodeFrame_getElem?_eq_readByte hk hlt).trans hv⟩

/-- Settles O39: the register each keeps by the list of writers (R20), the rest because none publishes. -/
theorem registerCommandsFrame : Obligations.RegisterCommandsFrame := by
  unfold Obligations.RegisterCommandsFrame
  intro s t
  refine ⟨fun br h => ?_, fun rp gp bp h => ?_, fun pos h => ?_⟩
  · obtain ⟨horder, -⟩ := onlyTheNamedCommandsWrite _ _ _ h
    exact ⟨horder nofun, exec_frame_of_not_publishes h rfl nofun⟩
  · obtain ⟨-, hbright, -⟩ := onlyTheNamedCommandsWrite _ _ _ h
    exact ⟨hbright nofun nofun, exec_frame_of_not_publishes h rfl nofun⟩
  · obtain ⟨horder, hbright, -⟩ := onlyTheNamedCommandsWrite _ _ _ h
    exact ⟨horder nofun, hbright nofun nofun, exec_frame_of_not_publishes h rfl nofun⟩

/-- Settles O40: the registers by the list of writers (R20); above the end of the buffer written neither state has a
byte. -/
theorem rewritingCommandsFrame : Obligations.RewritingCommandsFrame := by
  unfold Obligations.RewritingCommandsFrame
  intro s t hs
  refine ⟨fun n dev h => ?_, fun r g b a h => ?_, fun br h => ?_⟩
  · obtain ⟨horder, hbright, -, -, hparams⟩ := onlyTheNamedCommandsWrite _ _ _ h
    have hempty : s.pb.length ≤ n.toNat := by
      rw [hs.noPixels (exec_init_eq_next h).1]; exact Nat.zero_le _
    exact ⟨hparams, horder nofun, hbright nofun nofun, exec_pending h,
      fun _ => readByte_eq_of_length_le hempty (exec_init_pb_length h).le⟩
  · obtain ⟨horder, hbright, -, hconstr, -⟩ := onlyTheNamedCommandsWrite _ _ _ h
    exact ⟨hconstr nofun, horder nofun, hbright nofun nofun, exec_pending h, exec_opens h nofun,
      fun _ => exec_readByte_above hs h nofun⟩
  · obtain ⟨horder, -, -, hconstr, -⟩ := onlyTheNamedCommandsWrite _ _ _ h
    refine ⟨hconstr nofun, horder nofun, exec_pending h, exec_opens h nofun, fun hv => ?_,
      fun _ => exec_readByte_above hs h nofun⟩
    have hblock := exec_updbr_invalid_sameBlock h hv
    exact ⟨hblock.bright, State.readByte_congr hblock.pb⟩

/-- Settles O54: the second run of each only responds. -/
theorem repeatingSetCommandsChangesNothing : Obligations.RepeatingSetCommandsChangesNothing := by
  unfold Obligations.RepeatingSetCommandsChangesNothing
  intro i s t u hi hs hfirst hsecond
  have hagain : ∃ w, exec i t = .next (t.logResponse w) := by
    obtain ⟨idx, r, g, b, a, rfl⟩ | ⟨br, rfl⟩ | ⟨rp, gp, bp, rfl⟩ := hi
    · exact exec_setpx_again hs.order hfirst
    · exact exec_setmb_again hfirst
    · exact exec_setord_again hfirst
  obtain ⟨w, hw⟩ := hagain
  obtain rfl := Host.Outcome.next.inj (hw.symm.trans hsecond)
  exact sameBlock_and_sameBus_logResponse w
end

section
/-! PROOFS. The command words of `30_encoding.md`: what each opcode decodes to, when a word is the word of a command
(R81), the rows of the opcode table as formats (R82), the step by the word presented (R80), the response word (R94). -/

namespace Sys2Proof

variable {w : Word} {i : Instr}

/-! ### A word and its fields (R8, R81) -/

/-- Two adjacent fields are the one field that covers both. -/
theorem field_append_field (w : Word) (lo m n : Nat) : field w (lo + n) m ++ field w lo n = field w lo (m + n) :=
  BitVec.extractLsb'_append_extractLsb'_eq_extractLsb' rfl

theorem append_eq_append_iff {m n : Nat} {x x' : BitVec m} {y y' : BitVec n} :
    x ++ y = x' ++ y' ↔ x = x' ∧ y = y' := by
  refine ⟨fun h => ⟨?_, ?_⟩, fun ⟨hx, hy⟩ => by rw [hx, hy]⟩
  · simpa only [BitVec.extractLsb'_append_eq_left] using congrArg (BitVec.extractLsb' n m) h
  · simpa only [BitVec.extractLsb'_append_eq_right] using congrArg (BitVec.extractLsb' 0 n) h

theorem append_eq_field_iff {lo m n : Nat} {x : BitVec m} {y : BitVec n} :
    x ++ y = field w lo (m + n) ↔ x = field w (lo + n) m ∧ y = field w lo n := by
  rw [← field_append_field, append_eq_append_iff]

/-- A word is its opcode followed by its payload. -/
theorem opField_append_payload (w : Word) : opField w ++ field w 0 60 = w :=
  (field_append_field w 0 4 60).trans BitVec.extractLsb'_eq_self

theorem append_eq_word_iff {op : BitVec 4} {p : BitVec 60} :
    op ++ p = w ↔ op = opField w ∧ p = field w 0 60 := by
  conv_lhs => rw [← opField_append_payload w]
  exact append_eq_append_iff

/-! ### R81: when a word is the word of a command -/

/-- The lowest bit of the `Z` bits of a command's format. -/
def Instr.zeroLow : Instr → Nat
  | .init _ _        => 32
  | .setmb _         => 16
  | .updbr _         => 16
  | .setpx _ _ _ _ _ => 56
  | .fill _ _ _ _    => 32
  | .setord _ _ _    => 6
  | .update          => 0
  | .wheel _         => 16

/-- The operands of a command stand in the word's fields. -/
def Instr.OperandsIn (w : Word) : Instr → Prop
  | .init led dev      => led = field w 16 16 ∧ dev = field w 0 16
  | .setmb br          => br = field w 0 16
  | .updbr br          => br = field w 0 16
  | .setpx idx r g b a =>
    idx = field w 32 24 ∧ r = field w 24 8 ∧ g = field w 16 8 ∧ b = field w 8 8 ∧ a = field w 0 8
  | .fill r g b a      => r = field w 24 8 ∧ g = field w 16 8 ∧ b = field w 8 8 ∧ a = field w 0 8
  | .setord rp gp bp   => rp = field w 4 2 ∧ gp = field w 2 2 ∧ bp = field w 0 2
  | .update            => True
  | .wheel pos         => pos = field w 0 16

theorem zeroFrom_iff {lo : Nat} : zeroFrom w lo = true ↔ 0 = field w lo (60 - lo) :=
  beq_iff_eq.trans eq_comm

/-- The payload of a command is that of a word when the `Z` bits are zero and the operands stand in their fields. -/
theorem payload_eq_iff : i.payload = field w 0 60 ↔ zeroFrom w i.zeroLow = true ∧ i.OperandsIn w := by
  rw [zeroFrom_iff]
  cases i with
  | init led dev =>
    change (0 : BitVec 28) ++ led ++ dev = field w 0 (28 + 16 + 16) ↔ _
    simp only [append_eq_field_iff, and_assoc]; rfl
  | setmb br =>
    exact append_eq_field_iff (lo := 0) (m := 44) (n := 16)
  | updbr br =>
    exact append_eq_field_iff (lo := 0) (m := 44) (n := 16)
  | setpx idx r g b a =>
    change (0 : BitVec 4) ++ idx ++ r ++ g ++ b ++ a = field w 0 (4 + 24 + 8 + 8 + 8 + 8) ↔ _
    simp only [append_eq_field_iff, and_assoc]; rfl
  | fill r g b a =>
    change (0 : BitVec 28) ++ r ++ g ++ b ++ a = field w 0 (28 + 8 + 8 + 8 + 8) ↔ _
    simp only [append_eq_field_iff, and_assoc]; rfl
  | setord rp gp bp =>
    change (0 : BitVec 54) ++ rp ++ gp ++ bp = field w 0 (54 + 2 + 2 + 2) ↔ _
    simp only [append_eq_field_iff, and_assoc]; rfl
  | update => exact (iff_of_eq (and_true _)).symm
  | wheel pos => exact append_eq_field_iff (lo := 0) (m := 44) (n := 16)

/-- A word is the word of a command when it has the command's opcode, its `Z` bits zero, and its operands. -/
theorem encode_eq_iff :
    encode i = w ↔ opField w = i.opcode ∧ zeroFrom w i.zeroLow = true ∧ i.OperandsIn w := by
  rw [encode, append_eq_word_iff, payload_eq_iff, eq_comm]

/-! ### R83: the decoder by the command that the opcode names -/

/-- R83, with the opcode of `i` and its operands read: the `Z` bits, then for SETORD the permutation condition. -/
theorem decode_of_operandsIn (hop : opField w = i.opcode) (hargs : i.OperandsIn w) :
    decode w = if zeroFrom w i.zeroLow then if i.wf then .ok i else .error .orderNotPermutation
      else .error .mustBeZeroBitSet := by
  cases i with
  | init led dev => obtain ⟨rfl, rfl⟩ := hargs; rw [decode, hop]; rfl
  | setmb br => obtain rfl := hargs; rw [decode, hop]; rfl
  | updbr br => obtain rfl := hargs; rw [decode, hop]; rfl
  | setpx idx r g b a => obtain ⟨rfl, rfl, rfl, rfl, rfl⟩ := hargs; rw [decode, hop]; rfl
  | fill r g b a => obtain ⟨rfl, rfl, rfl, rfl⟩ := hargs; rw [decode, hop]; rfl
  | setord rp gp bp => obtain ⟨rfl, rfl, rfl⟩ := hargs; rw [decode, hop]; rfl
  | update => rw [decode, hop]; rfl
  | wheel pos => obtain rfl := hargs; rw [decode, hop]; rfl

theorem decode_reserved (h : opField w = 0 ∨ 9 ≤ (opField w).toNat) : decode w = .error .reservedOpcode := by
  have hnat : (opField w).toNat = 0 ∨ 9 ≤ (opField w).toNat := h.imp_left (congrArg BitVec.toNat)
  unfold decode
  split
  any_goals omega
  rfl

/-- R82, R91: an opcode is reserved or one of the eight. -/
theorem opcode_cases : ∀ op : BitVec 4, (op = 0 ∨ 9 ≤ op.toNat) ∨
    op = 1 ∨ op = 2 ∨ op = 3 ∨ op = 4 ∨ op = 5 ∨ op = 6 ∨ op = 7 ∨ op = 8 := by decide

/-- An opcode that is not reserved names a command, with the word's fields as operands. -/
theorem reserved_or_operandsIn (w : Word) :
    (opField w = 0 ∨ 9 ≤ (opField w).toNat) ∨ ∃ i : Instr, opField w = i.opcode ∧ i.OperandsIn w := by
  obtain hop | hop | hop | hop | hop | hop | hop | hop | hop := opcode_cases (opField w)
  · exact .inl hop
  · exact .inr ⟨.init _ _, hop, rfl, rfl⟩
  · exact .inr ⟨.setmb _, hop, rfl⟩
  · exact .inr ⟨.updbr _, hop, rfl⟩
  · exact .inr ⟨.setpx _ _ _ _ _, hop, rfl, rfl, rfl, rfl, rfl⟩
  · exact .inr ⟨.fill _ _ _ _, hop, rfl, rfl, rfl, rfl⟩
  · exact .inr ⟨.setord _ _ _, hop, rfl, rfl, rfl⟩
  · exact .inr ⟨.update, hop, trivial⟩
  · exact .inr ⟨.wheel _, hop, rfl⟩

/-- The accepted words are those of the well-formed commands. -/
theorem decode_eq_ok : decode w = .ok i ↔ i.wf = true ∧ encode i = w := by
  constructor
  · intro h
    obtain hres | ⟨j, hop, hargs⟩ := reserved_or_operandsIn w
    · rw [decode_reserved hres] at h; cases h
    · rw [decode_of_operandsIn hop hargs] at h
      split at h
      next hz =>
        split at h
        next hwf => cases h; exact ⟨hwf, encode_eq_iff.2 ⟨hop, hz, hargs⟩⟩
        next => cases h
      next => cases h
  · rintro ⟨hwf, henc⟩
    obtain ⟨hop, hz, hargs⟩ := encode_eq_iff.1 henc
    rw [decode_of_operandsIn hop hargs, if_pos hz, if_pos hwf]

/-- R92 (b): the word of a command that is not well-formed. -/
theorem decode_encode_of_not_wf (hwf : i.wf = false) : decode (encode i) = .error .orderNotPermutation := by
  obtain ⟨hop, hz, hargs⟩ := encode_eq_iff.1 (rfl : encode i = encode i)
  rw [decode_of_operandsIn hop hargs, if_pos hz, if_neg (Bool.eq_false_iff.1 hwf)]

/-! ### R82: the rows of the opcode table -/

/-- The name of a command in the opcode table. -/
def Instr.mnemonic : Instr → String
  | .init _ _        => "INIT"
  | .setmb _         => "SETMB"
  | .updbr _         => "UPDBR"
  | .setpx _ _ _ _ _ => "SETPX"
  | .fill _ _ _ _    => "FILL"
  | .setord _ _ _    => "SETORD"
  | .update          => "UPDATE"
  | .wheel _         => "WHEEL"

/-- The row of a format: the opcode, and the `Z` bits from bit `lo` up zero. -/
def OpcodeRow.ofFormat (mnemonic : String) (op : BitVec 4) (lo : Nat) : OpcodeRow :=
  ⟨mnemonic, op ++ (0 : BitVec 60), BitVec.allOnes 64 <<< lo⟩

/-- The row of a command. -/
def Instr.row (i : Instr) : OpcodeRow := .ofFormat i.mnemonic i.opcode i.zeroLow

/-- `spec/opcode_table.json` by formats. -/
theorem opcodeRows_eq_ofFormat : opcodeRows =
    [.ofFormat "INIT" 1 32, .ofFormat "SETMB" 2 16, .ofFormat "UPDBR" 3 16, .ofFormat "SETPX" 4 56,
      .ofFormat "FILL" 5 32, .ofFormat "SETORD" 6 6, .ofFormat "UPDATE" 7 0, .ofFormat "WHEEL" 8 16] := by decide

theorem Instr.row_mem (i : Instr) : i.row ∈ opcodeRows := by
  rw [opcodeRows_eq_ofFormat]
  cases i with
  | init led dev => exact List.mem_of_getElem? (i := 0) rfl
  | setmb br => exact List.mem_of_getElem? (i := 1) rfl
  | updbr br => exact List.mem_of_getElem? (i := 2) rfl
  | setpx idx r g b a => exact List.mem_of_getElem? (i := 3) rfl
  | fill r g b a => exact List.mem_of_getElem? (i := 4) rfl
  | setord rp gp bp => exact List.mem_of_getElem? (i := 5) rfl
  | update => exact List.mem_of_getElem? (i := 6) rfl
  | wheel pos => exact List.mem_of_getElem? (i := 7) rfl

theorem Instr.zeroLow_le (i : Instr) : i.zeroLow ≤ 60 := by
  cases i with
  | _ => simp [zeroLow]

/-- A field is zero when its bits of the word are. -/
theorem zero_eq_field_iff {lo len : Nat} :
    0 = field w lo len ↔ ∀ k, lo ≤ k → k < lo + len → w.getLsbD k = false := by
  constructor
  · intro h k hlo hk
    have hbit : (field w lo len).getLsbD (k - lo) = w.getLsbD (lo + (k - lo)) := by
      rw [field, BitVec.getLsbD_extractLsb', decide_eq_true (by omega), Bool.true_and]
    rw [Nat.add_sub_cancel' hlo, ← h] at hbit
    exact hbit.symm.trans BitVec.getLsbD_zero
  · intro h
    ext j hj
    rw [field, BitVec.getElem_extractLsb', h (lo + j) (by omega) (by omega)]
    exact BitVec.getElem_zero hj

/-- Below the opcode the mask of a row keeps the bits that are not below the `Z` bits. -/
theorem getLsbD_and_mask_eq_false_iff {lo k : Nat} (hk : k < 60) :
    (w &&& BitVec.allOnes 64 <<< lo).getLsbD k = false ↔ (lo ≤ k → w.getLsbD k = false) := by
  have hk64 : k < 64 := by omega
  have hsub : k - lo < 64 := by omega
  rw [BitVec.getLsbD_and, BitVec.getLsbD_shiftLeft, BitVec.getLsbD_allOnes]
  by_cases hle : lo ≤ k
  · have hnlt : ¬k < lo := Nat.not_lt.2 hle
    simp only [hk64, hsub, hle, hnlt, decide_true, decide_false, Bool.not_false, Bool.and_true, true_imp_iff]
  · have hlt : k < lo := Nat.not_le.1 hle
    simp only [hle, hlt, decide_true, Bool.not_true, Bool.and_false, Bool.false_and, false_imp_iff]

/-- What the mask of a row leaves below the opcode are the `Z` bits. -/
theorem zero_eq_field_and_mask_iff {lo : Nat} (hlo : lo ≤ 60) :
    0 = field (w &&& BitVec.allOnes 64 <<< lo) 0 60 ↔ zeroFrom w lo = true := by
  rw [zeroFrom_iff, zero_eq_field_iff, zero_eq_field_iff]
  constructor
  · intro h k hle hk
    have hk60 : k < 60 := by omega
    exact (getLsbD_and_mask_eq_false_iff hk60).1 (h k (Nat.zero_le k) hk60) hle
  · intro h k _ hk
    exact (getLsbD_and_mask_eq_false_iff hk).2 fun hle => h k hle (by omega)

/-- A row's mask fixes the whole opcode, and to one that is assigned. -/
theorem opcodeRows_opField : ∀ row ∈ opcodeRows, opField row.mask = BitVec.allOnes 4 ∧
    ¬(opField row.pattern = 0 ∨ 9 ≤ (opField row.pattern).toNat) := by decide

theorem nodup_opcodeRows_opField : (opcodeRows.map fun row => opField row.pattern).Nodup := by decide

theorem opField_and_mask {row : OpcodeRow} (hrow : row ∈ opcodeRows) : opField (w &&& row.mask) = opField w := by
  obtain ⟨hmask, -⟩ := opcodeRows_opField row hrow
  have hand : opField (w &&& row.mask) = opField w &&& opField row.mask := BitVec.extractLsb'_and
  rw [hand, hmask, BitVec.and_allOnes]

theorem opField_of_match {row : OpcodeRow} (hrow : row ∈ opcodeRows) (h : w &&& row.mask = row.pattern) :
    opField w = opField row.pattern := by
  rw [← h, opField_and_mask hrow]

/-- A word matches the row of a command when it has the command's opcode and its `Z` bits zero. -/
theorem match_row_iff :
    w &&& i.row.mask = i.row.pattern ↔ opField w = i.opcode ∧ zeroFrom w i.zeroLow = true := by
  have hpattern : i.row.pattern = i.opcode ++ (0 : BitVec 60) := rfl
  have hmask : i.row.mask = BitVec.allOnes 64 <<< i.zeroLow := rfl
  rw [eq_comm, hpattern, append_eq_word_iff, opField_and_mask i.row_mem, hmask,
    zero_eq_field_and_mask_iff i.zeroLow_le, eq_comm]

/-- Of the commands that a word's operands make, only SETORD's can be no command (R89). -/
theorem wf_iff_of_operandsIn (h : i.OperandsIn w) : i.wf = true ↔
    (i.row.mnemonic = "SETORD" → isPermutation (field w 4 2) (field w 2 2) (field w 0 2) = true) := by
  cases i with
  | setord rp gp bp => obtain ⟨rfl, rfl, rfl⟩ := h; exact ⟨fun hp _ => hp, fun hp => hp rfl⟩
  | _ => simp [Instr.wf, Instr.row, OpcodeRow.ofFormat, Instr.mnemonic]

/-- The opcode of a row is that of its command. -/
theorem eq_row_of_opField {row : OpcodeRow} (hrow : row ∈ opcodeRows) (h : opField row.pattern = i.opcode) :
    row = i.row := by
  have hop : opField i.row.pattern = i.opcode := Laws.OpcodeField.opField_append _ _
  exact List.inj_on_of_nodup_map nodup_opcodeRows_opField hrow i.row_mem (h.trans hop.symm)

/-- A word with the opcode of a row has a command of that row, its operands read from the word. -/
theorem exists_command_of_row {row : OpcodeRow} (hrow : row ∈ opcodeRows) (h : opField w = opField row.pattern) :
    ∃ i : Instr, row = i.row ∧ opField w = i.opcode ∧ i.OperandsIn w := by
  obtain hres | ⟨i, hop, hargs⟩ := reserved_or_operandsIn w
  · rw [h] at hres
    exact absurd hres (opcodeRows_opField row hrow).2
  · exact ⟨i, eq_row_of_opField hrow (h.symm.trans hop), hop, hargs⟩

/-- R85, R92 (a): an assigned opcode whose row the word does not match. -/
theorem decode_of_not_match {row : OpcodeRow} (hrow : row ∈ opcodeRows) (h : opField w = opField row.pattern)
    (hne : w &&& row.mask ≠ row.pattern) : decode w = .error .mustBeZeroBitSet := by
  obtain ⟨i, rfl, hop, hargs⟩ := exists_command_of_row hrow h
  rw [decode_of_operandsIn hop hargs, if_neg fun hz => hne (match_row_iff.2 ⟨hop, hz⟩)]

/-- R89: fields whose values are not 0, 1 and 2 are no permutation. -/
theorem isPermutation_eq_false {rp gp bp : BitVec 2}
    (h : ¬(({rp.toNat, gp.toNat, bp.toNat} : Finset Nat) = {0, 1, 2})) : isPermutation rp gp bp = false :=
  Bool.eq_false_iff.2 fun hp => h ((isPermutation_iff rp gp bp).1 hp)

end Sys2Proof

namespace Sys2Proof.Machine

variable {s t u : State} {w : Word} {ws : List Word} {i : Instr}

/-! ### R80: the step by the word presented -/

theorem step_of_decode_eq_ok (hp : s.pending = w :: ws) (hd : decode w = .ok i) :
    step s = exec i (s.setPending ws) := by
  rw [step, fetch, hp]; simp only [hd]

theorem step_of_decode_eq_error {why : Reject} (hp : s.pending = w :: ws) (hd : decode w = .error why) :
    step s = .refused (.reserved why) := by
  rw [step, fetch, hp]; simp only [hd]

/-- R197: operands that are no permutation are refused before the phase is looked at. -/
theorem exec_setord_of_not_permutation {rp gp bp : BitVec 2} (h : isPermutation rp gp bp = false) :
    exec (.setord rp gp bp) s = .refused (.reserved .orderNotPermutation) := by
  change execSetord rp gp bp s = _
  rw [execSetord, if_neg (Bool.eq_false_iff.1 h)]

/-! ### R80, R94: one response to a command -/

theorem Writes.responses (h : Writes s i u) : u.responses = s.responses := by
  cases h with
  | _ => rfl

theorem Ends.responses {sends : Bool} (h : Ends s sends t) :
    ∃ en, t.responses = s.responses ++ [responseWord en] := by
  cases h with
  | sent r => exact ⟨_, rfl⟩
  | quiet en => exact ⟨en, rfl⟩

theorem exec_responses (h : exec i s = .next t) : ∃ en, t.responses = s.responses ++ [responseWord en] := by
  obtain ⟨u, hu, hend⟩ := exec_eq_next h
  rw [← hu.responses]
  exact hend.responses

theorem responseWord_status (en : Ending) : (responseWord en).extractLsb' 24 8 = statusOf en :=
  BitVec.extractLsb'_append_eq_left

theorem responseWord_data (en : Ending) : (responseWord en).extractLsb' 0 24 = dataOf en :=
  BitVec.extractLsb'_append_eq_right

end Sys2Proof.Machine
end

section
open Sys2Proof Sys2Proof.Machine

/-- Settles O2: the words of the well-formed commands are accepted. -/
theorem decodeOfEncode : Obligations.DecodeOfEncode := by
  unfold Obligations.DecodeOfEncode
  exact fun i hwf => decode_eq_ok.2 ⟨hwf, rfl⟩

/-- Settles O3: no other word is accepted. -/
theorem encodeOfDecode : Obligations.EncodeOfDecode := by
  unfold Obligations.EncodeOfDecode
  exact fun w i => decode_eq_ok.1

/-- Settles O4: an accepted word matches the row of its command, and a word that matches a row has a command of
that row, well-formed where the fields of a SETORD are a permutation. -/
theorem decoderAcceptsExactlyTheTable : Obligations.DecoderAcceptsExactlyTheTable := by
  unfold Obligations.DecoderAcceptsExactlyTheTable
  intro w
  constructor
  · rintro ⟨i, h⟩
    obtain ⟨hwf, henc⟩ := decode_eq_ok.1 h
    obtain ⟨hop, hz, hargs⟩ := encode_eq_iff.1 henc
    exact ⟨i.row, i.row_mem, match_row_iff.2 ⟨hop, hz⟩, (wf_iff_of_operandsIn hargs).1 hwf⟩
  · rintro ⟨row, hrow, hmatch, hperm⟩
    obtain ⟨i, rfl, hop, hargs⟩ := exists_command_of_row hrow (opField_of_match hrow hmatch)
    obtain ⟨-, hz⟩ := match_row_iff.1 hmatch
    exact ⟨i, decode_eq_ok.2 ⟨(wf_iff_of_operandsIn hargs).2 hperm, encode_eq_iff.2 ⟨hop, hz, hargs⟩⟩⟩

/-- Settles O6: no command has a reserved opcode. -/
theorem reservedOpcodesAreRefused : Obligations.ReservedOpcodesAreRefused := by
  unfold Obligations.ReservedOpcodesAreRefused
  exact fun s w ws hp hop => step_of_decode_eq_error hp (decode_reserved hop)

/-- Settles O7: the opcode's row names the `Z` bits that the decoder checks. -/
theorem mustBeZeroBitsAreRefused : Obligations.MustBeZeroBitsAreRefused := by
  unfold Obligations.MustBeZeroBitsAreRefused
  exact fun s w ws hp row hrow hop hne => step_of_decode_eq_error hp (decode_of_not_match hrow hop hne)

/-- Settles O8: the decoder rejects the word, and `exec` has the same guard. -/
theorem nonPermutationsAreRefused : Obligations.NonPermutationsAreRefused := by
  unfold Obligations.NonPermutationsAreRefused
  intro s rp gp bp ws hne
  have hperm := isPermutation_eq_false hne
  exact ⟨fun hp => step_of_decode_eq_error hp (decode_encode_of_not_wf hperm),
    exec_setord_of_not_permutation hperm⟩

/-- Settles O50: the step takes the word, and the command that it runs takes no other and responds once. -/
theorem oneResponsePerCommand : Obligations.OneResponsePerCommand := by
  unfold Obligations.OneResponsePerCommand
  intro s t w ws hp h
  obtain ⟨hnil, -⟩ | ⟨w', ws', i, hp', -, he⟩ := step_eq_next h
  · rw [hp] at hnil; cases hnil
  · rw [hp] at hp'
    cases hp'
    have hresp := exec_responses he
    exact ⟨exec_pending he, hresp⟩

/-- Settles O1: the decoder evaluated at each word. -/
theorem listedWordsDecode : Obligations.ListedWordsDecode := by
  unfold Obligations.ListedWordsDecode
  decide

/-- Settles O5: a word that matches a row has its opcode, and no two rows share one. -/
theorem opcodeRowsAreDisjoint : Obligations.OpcodeRowsAreDisjoint := by
  unfold Obligations.OpcodeRowsAreDisjoint
  refine (List.pairwise_map.1 nodup_opcodeRows_opField).imp_of_mem fun hx hy hne w => ?_
  rintro ⟨hmx, hmy⟩
  exact hne ((opField_of_match hx hmx).symm.trans (opField_of_match hy hmy))

/-- Settles O9: taking the word leaves every field but `pending`. -/
theorem stepRunsTheDecodedCommand : Obligations.StepRunsTheDecodedCommand := by
  unfold Obligations.StepRunsTheDecodedCommand
  exact fun s w ws i => step_of_decode_eq_ok

/-- Settles O51: `STATUS` and `DATA` are the two parts the word is put together from. -/
theorem responseWordLayout : Obligations.ResponseWordLayout := by
  unfold Obligations.ResponseWordLayout
  exact fun d e => ⟨⟨responseWord_status _, responseWord_data _⟩, ⟨responseWord_status _, responseWord_data _⟩,
    ⟨responseWord_status _, responseWord_data _⟩, ⟨responseWord_status _, responseWord_data _⟩⟩
end

section
/-! PROOFS. The gamma table by R111's integer inequality (`40_gamma.md`).

The table is evaluated once: at each index the entry without bit 7 meets the inequality and the next integer
does not (`gamma_entry`). R111's largest integer, R110's real formula and
the monotonicity of R113 are consequences of that. -/

namespace Sys2Proof.Machine

/-- `t(i) = G[i] - 128` (R110): the entry without bit 7. -/
def gammaLevel (i : BitVec 8) : Nat := (gamma i).toNat - 128

/-- R111's inequality: `m` is at most `127 * (g/255)^2.5 + 0.5`. The subtraction is of naturals, so 0 always
meets it. -/
def GammaReaches (g m : Nat) : Prop := (2 * m - 1) ^ 2 * 255 ^ 5 ≤ 4 * 127 ^ 2 * g ^ 5

variable {g h m n : Nat}

theorem gammaReaches_zero : GammaReaches g 0 := by simp [GammaReaches]

theorem gammaReaches_succ : GammaReaches g (m + 1) ↔ (2 * m + 1) ^ 2 * 255 ^ 5 ≤ 4 * 127 ^ 2 * g ^ 5 := Iff.rfl

theorem GammaReaches.of_le (hn : GammaReaches g n) (hmn : m ≤ n) : GammaReaches g m :=
  (Nat.mul_le_mul_right _ (Nat.pow_le_pow_left (by omega) 2)).trans hn

theorem GammaReaches.mono (hm : GammaReaches g m) (hgh : g ≤ h) : GammaReaches h m :=
  hm.trans (Nat.mul_le_mul_left _ (Nat.pow_le_pow_left hgh 5))

/-- R111's own form of the inequality, where `2m - 1` is an integer and `m = 0` stands apart. -/
theorem gammaReaches_iff_int :
    GammaReaches g m ↔ m = 0 ∨ (2 * (m : ℤ) - 1) ^ 2 * 255 ^ 5 ≤ 4 * 127 ^ 2 * (g : ℤ) ^ 5 := by
  cases m with
  | zero => simp [gammaReaches_zero]
  | succ k =>
    have hodd : 2 * ((k + 1 : ℕ) : ℤ) - 1 = ((2 * k + 1 : ℕ) : ℤ) := by push_cast; ring
    rw [gammaReaches_succ, hodd, or_iff_right k.succ_ne_zero]
    norm_cast

/-! ### The entries (R112) -/

/-- The one evaluation of the table: bit 7, and the inequality at the level and at the next integer. -/
theorem gamma_entry (i : BitVec 8) :
    128 ≤ (gamma i).toNat ∧ GammaReaches i.toNat (gammaLevel i) ∧ ¬ GammaReaches i.toNat (gammaLevel i + 1) := by
  revert i; unfold GammaReaches; decide

theorem le_gamma (i : BitVec 8) : 128 ≤ (gamma i).toNat := (gamma_entry i).1

/-- R111: the level is the largest integer that meets the inequality. -/
theorem le_gammaLevel_iff {i : BitVec 8} : m ≤ gammaLevel i ↔ GammaReaches i.toNat m := by
  obtain ⟨-, hlevel, hnext⟩ := gamma_entry i
  exact ⟨hlevel.of_le, fun hm => not_lt.1 fun hlt => hnext (hm.of_le hlt)⟩

theorem toNat_gamma (i : BitVec 8) : (gamma i).toNat = 128 + gammaLevel i :=
  (Nat.add_sub_cancel' (le_gamma i)).symm

theorem gammaLevel_lt (i : BitVec 8) : gammaLevel i < 128 := by
  have := (gamma i).isLt
  have := toNat_gamma i
  omega

/-- R110: bit 7 is set beside the level. -/
theorem gamma_eq_or (i : BitVec 8) : gamma i = 0x80#8 ||| BitVec.ofNat 8 (gammaLevel i) := by
  have hlt := gammaLevel_lt i
  have hbyte : (BitVec.ofNat 8 (gammaLevel i)).toNat = gammaLevel i := Nat.mod_eq_of_lt (by omega)
  apply BitVec.eq_of_toNat_eq
  calc (gamma i).toNat
      = 2 ^ 7 * 1 + gammaLevel i := by rw [toNat_gamma]
    _ = 2 ^ 7 * 1 ||| gammaLevel i := Nat.two_pow_add_eq_or_of_lt hlt 1
    _ = (0x80#8 ||| BitVec.ofNat 8 (gammaLevel i)).toNat := by
        rw [BitVec.toNat_or, hbyte]; rfl

theorem gammaLevel_mono {i j : BitVec 8} (hij : i ≤ j) : gammaLevel i ≤ gammaLevel j :=
  le_gammaLevel_iff.2 ((le_gammaLevel_iff.1 le_rfl).mono hij)

theorem not_mem_gammaTable {v : Byte} (hv : v ∈ ([0xE7, 0xF0, 0xF7, 0xFC] : List Byte)) : v ∉ gammaTable := by
  revert v; decide

/-! ### The formula over the reals (R110) -/

theorem rpow_five_halves_sq {x : ℝ} (hx : 0 ≤ x) : (x ^ (5 / 2 : ℝ)) ^ 2 = x ^ 5 := by
  rw [← Real.rpow_mul_natCast hx, ← Real.rpow_natCast x 5]
  norm_num

/-- R111's reason: below 1/2 there is only 0, and otherwise both sides of `2m - 1 ≤ 2 * 127 * (g/255)^2.5` may be
squared. -/
theorem le_floor_gammaFormula_iff :
    m ≤ ⌊((g : ℝ) / 255) ^ (5 / 2 : ℝ) * 127 + 1 / 2⌋₊ ↔ GammaReaches g m := by
  cases m with
  | zero => simp [gammaReaches_zero]
  | succ k =>
    have hsq := rpow_five_halves_sq (x := (g : ℝ) / 255) (by positivity)
    have hpos : 0 ≤ ((g : ℝ) / 255) ^ (5 / 2 : ℝ) := by positivity
    generalize ((g : ℝ) / 255) ^ (5 / 2 : ℝ) = y at hsq hpos ⊢
    calc k + 1 ≤ ⌊y * 127 + 1 / 2⌋₊
        ↔ ((k + 1 : ℕ) : ℝ) ≤ y * 127 + 1 / 2 := Nat.le_floor_iff' k.succ_ne_zero
      _ ↔ 2 * (k : ℝ) + 1 ≤ 2 * 127 * y := by push_cast; constructor <;> intro <;> linarith
      _ ↔ (2 * (k : ℝ) + 1) ^ 2 ≤ (2 * 127 * y) ^ 2 :=
          (pow_le_pow_iff_left₀ (by positivity) (by positivity) two_ne_zero).symm
      _ ↔ (2 * (k : ℝ) + 1) ^ 2 * 255 ^ 5 ≤ 4 * 127 ^ 2 * (g : ℝ) ^ 5 := by
          rw [mul_pow, hsq, div_pow, mul_div_assoc', le_div_iff₀ (by positivity)]; norm_num
      _ ↔ GammaReaches g (k + 1) := by rw [gammaReaches_succ]; norm_cast

theorem floor_gammaFormula (i : BitVec 8) :
    ⌊((i.toNat : ℝ) / 255) ^ (5 / 2 : ℝ) * 127 + 1 / 2⌋₊ = gammaLevel i :=
  eq_of_forall_le_iff fun _ => le_floor_gammaFormula_iff.trans le_gammaLevel_iff.symm

end Sys2Proof.Machine
end

section
open Sys2Proof Sys2Proof.Machine

/-- Settles O12: the floor of the real formula is the level of the entry. -/
theorem gammaTableFollowsItsFormula : Obligations.GammaTableFollowsItsFormula := by
  unfold Obligations.GammaTableFollowsItsFormula
  intro i
  rw [floor_gammaFormula]
  exact gamma_eq_or i

/-- Settles O13: the entries meet the inequality and the next integers do not. -/
theorem gammaEntryIsTheLargestInteger : Obligations.GammaEntryIsTheLargestInteger := by
  unfold Obligations.GammaEntryIsTheLargestInteger
  exact fun i => ⟨le_gamma i, fun _ => le_gammaLevel_iff.trans gammaReaches_iff_int⟩

/-- Settles O14: the inequality gives the monotonicity; the rest is read off the table. -/
theorem gammaTableIsMonotoneAndNative : Obligations.GammaTableIsMonotoneAndNative := by
  unfold Obligations.GammaTableIsMonotoneAndNative
  refine ⟨fun i => ?_, fun i j hij => ?_, rfl, rfl, fun i hmem => not_mem_gammaTable hmem (gamma_mem i)⟩
  · rw [gamma_eq_or, BitVec.getLsbD_or]
    exact Bool.true_or _
  · rw [BitVec.le_def, toNat_gamma, toNat_gamma]
    exact Nat.add_le_add_left (gammaLevel_mono hij) 128
end

section
/-! PROOFS. The gamma index as the floored product of channel, alpha and brightness, and the native values it gives
at alpha and brightness 1.0 and at intensity 0 (`41_pixel_write.md` R122, R125, R128). -/

namespace Sys2Proof.Machine

variable {c a : Byte} {q : BitVec 15}

/-- R122: no product exceeds `255 * 255 * 16384`. -/
theorem gammaProduct_le (hq : q.toNat ≤ 16384) : c.toNat * a.toNat * q.toNat ≤ 255 * 255 * 16384 :=
  Nat.mul_le_mul (Nat.mul_le_mul (Nat.le_of_lt_succ c.isLt) (Nat.le_of_lt_succ a.isLt)) hq

/-- The quotient is below 256, so that eight bits hold it. -/
theorem toNat_gammaIndex (hq : q.toNat ≤ 16384) :
    (gammaIndex c a q).toNat = c.toNat * a.toNat * q.toNat / 4177920 := by
  have hle := gammaProduct_le (c := c) (a := a) hq
  exact Nat.mod_eq_of_lt (by omega)

/-- R122's rational product has the denominator `255 * 16384` of the integer quotient. -/
theorem floor_gammaProduct (c a : Byte) (q : BitVec 15) :
    ⌊val8 c * val8 a * ((q.toNat : ℚ) / 16384) * 255⌋ = ((c.toNat * a.toNat * q.toNat / 4177920 : ℕ) : ℤ) := by
  have hfrac : val8 c * val8 a * ((q.toNat : ℚ) / 16384) * 255 =
      ((c.toNat * a.toNat * q.toNat : ℕ) : ℚ) / (4177920 : ℕ) := by
    unfold val8; push_cast; ring
  rw [hfrac, Rat.floor_natCast_div_natCast, Int.natCast_div]

theorem gammaIndex_eq_zero (h : c = 0 ∨ a = 0 ∨ q = 0) : gammaIndex c a q = 0 := by
  have hprod : c.toNat * a.toNat * q.toNat = 0 := by
    obtain rfl | rfl | rfl := h
    · simp
    · simp
    · simp
  rw [gammaIndex, hprod]; rfl

/-- At alpha and brightness 1.0 the divisor is the product of the other two factors. -/
theorem gammaIndex_full (hq : q.toNat = 16384) : gammaIndex c 255 q = c := by
  apply BitVec.eq_of_toNat_eq
  calc (gammaIndex c 255 q).toNat
      = c.toNat * 255 * q.toNat / 4177920 := toNat_gammaIndex hq.le
    _ = c.toNat := by rw [hq]; omega

/-- R128 item 1. -/
theorem nativeOf_full (r g b : Byte) : nativeOf r g b 255 16384 = ⟨gamma r, gamma g, gamma b⟩ := by
  simp only [nativeOf, gammaIndex_full (q := 16384) rfl]

/-- R125: intensity 0 is the entry `G[0]` in each channel, whatever alpha and brightness. -/
theorem nativeOf_off (a : Byte) (q : BitVec 15) : nativeOf 0 0 0 a q = ⟨0x80, 0x80, 0x80⟩ := by
  rw [nativeOf, gammaIndex_eq_zero (.inl rfl)]; rfl

end Sys2Proof.Machine
end

section
/-! PROOFS. The pixel writes of `41_pixel_write.md`: what stands in a pixel that was written (R120), SETPX (R124), the
loop behind PB_FILL (R121), FILL and ALLOFF (R126, R127). -/

namespace Sys2Proof.Machine

variable {s t : State} {v : Native} {i k : Nat} {r g b a : Byte}

/-! ### R120: the pixel after the write -/

/-- A byte that a pixel has is read at its linear address (R52). -/
theorem readByte_of_byteAt {px : Pixel} {p : Nat} {x : Byte} (hk : s.pb[k]? = some px) (hx : px.byteAt p = some x) :
    s.readByte (pixelAddr k + p) = some x := by
  obtain ⟨hp, -⟩ := List.getElem?_eq_some_iff.1 hx
  rw [s.readByte_pixelAddr k p hp, hk]
  exact hx

/-- Pixel `k` holds the native value `v`, each channel's byte at the position `o` gives it. -/
def State.HoldsNative (s : State) (k : Nat) (o : ChannelOrder) (v : Native) : Prop :=
  s.readByte (pixelAddr k + o.r.toNat) = some v.red ∧
  s.readByte (pixelAddr k + o.g.toNat) = some v.green ∧
  s.readByte (pixelAddr k + o.b.toNat) = some v.blue

theorem holdsNative_of_putNative {px : Pixel} {o : ChannelOrder} (ho : o.legal)
    (hk : s.pb[k]? = some (px.putNative o v)) : s.HoldsNative k o v := by
  obtain ⟨hr, hg, hb⟩ := px.byteAt_putNative o v ho
  exact ⟨readByte_of_byteAt hk hr, readByte_of_byteAt hk hg, readByte_of_byteAt hk hb⟩

theorem pixelWritten_getElem? (hk : k < s.pb.length) :
    (s.pixelWritten k v).pb[k]? = some (s.pb[k].putNative s.order v) := by
  rw [State.pixelWritten, State.setPixels_pb, List.getElem?_modify_eq, List.getElem?_eq_getElem hk]; rfl

theorem pbFill_getElem? (hk : k < s.pb.length) : (pbFill v s).pb[k]? = some (s.pb[k].putNative s.order v) := by
  rw [pbFill, State.setPixels_pb, List.getElem?_map, List.getElem?_eq_getElem hk]; rfl

/-- A pixel write leaves every byte outside the pixel's three. -/
theorem pixelWritten_readByte_outside {addr : Nat} (h : addr < pixelAddr k ∨ pixelAddr k + 3 ≤ addr) :
    (s.pixelWritten k v).readByte addr = s.readByte addr := by
  have hne : k ≠ addr / 3 := by unfold pixelAddr at h; omega
  rw [State.readByte, State.readByte, State.pixelWritten, State.setPixels_pb, List.getElem?_modify_ne _ _ hne]

theorem Pixel.put_same (p : BitVec 2) (x : Byte) : Pixel.put p x ⟨x, x, x⟩ = ⟨x, x, x⟩ := by
  obtain rfl | rfl | rfl | rfl := position_cases p
  · rfl
  · rfl
  · rfl
  · rfl

/-- A value with three equal bytes looks the same under every legal order. -/
theorem Pixel.putNative_same {o : ChannelOrder} (ho : o.legal) (px : Pixel) (x : Byte) :
    px.putNative o ⟨x, x, x⟩ = ⟨x, x, x⟩ := by
  rw [px.putNative_eq ⟨x, x, x⟩ o _ ho, Pixel.putNative, Pixel.put_same, Pixel.put_same, Pixel.put_same]

/-! ### R124: SETPX -/

theorem exec_setpx_uninit {idx : BitVec 24} (hp : s.phase = .uninit) :
    exec (.setpx idx r g b a) s = .refused .beforeInit := whenReady_of_uninit hp _

/-- An index below `N` fits the signed operand field (R84). -/
theorem pixelIndex_ofInt (h : i < 2 ^ 16) : pixelIndex (BitVec.ofInt 24 i) = i :=
  BitVec.toInt_ofInt_eq_self (by omega) (by omega) (by omega)

/-- The assembler's SETPX of an index below `N` writes that pixel. -/
theorem exec_asmSetpx (hp : s.phase = .ready) (hi : i < s.ledCount.toNat) :
    exec (asmSetpx i r g b a) s =
      .next ((s.pixelWritten i (nativeOf r g b a s.bright)).logResponse (responseWord (.ok 0))) := by
  have hidx : pixelIndex (BitVec.ofInt 24 i) = i := pixelIndex_ofInt (hi.trans s.ledCount.isLt)
  have hrange : indexInRange (pixelIndex (BitVec.ofInt 24 i)) s.ledCount = true := by
    rw [hidx, indexInRange_iff]; omega
  have hrun := exec_setpx (r := r) (g := g) (b := b) (a := a) hp hrange
  rw [hidx] at hrun
  exact hrun

/-! ### R121: PB_FILL as a loop -/

/-- The block when PB_FILL's loop has written the pixels below index `n`. -/
def State.filledBelow (n : Nat) (v : Native) (s : State) : State :=
  s.setPixels (s.pb.mapIdx fun i px => if i < n then px.putNative s.order v else px)

theorem filledBelow_getElem? (n : Nat) (v : Native) (s : State) (i : Nat) :
    (s.filledBelow n v).pb[i]? = s.pb[i]?.map fun px => if i < n then px.putNative s.order v else px :=
  List.getElem?_mapIdx

theorem filledBelow_zero (v : Native) (s : State) : s.filledBelow 0 v = s := by
  have hpb : (s.filledBelow 0 v).pb = s.pb := List.ext_getElem? fun i => by simp [filledBelow_getElem?]
  exact congrArg s.setPixels hpb

/-- One turn of the loop writes the next pixel. -/
theorem filledBelow_succ (n : Nat) (v : Native) (s : State) :
    (s.filledBelow n v).pixelWritten n v = s.filledBelow (n + 1) v := by
  have hpb : (s.filledBelow n v).pb.modify n (Pixel.putNative s.order v) = (s.filledBelow (n + 1) v).pb := by
    apply List.ext_getElem?
    intro i
    rw [List.getElem?_modify, filledBelow_getElem?, filledBelow_getElem?, Option.map_eq_map, Option.map_map]
    congr 1
    funext px
    obtain hlt | rfl | hgt := lt_trichotomy i n
    · simp [hlt, hlt.ne', Nat.lt_succ_of_lt hlt]
    · simp
    · simp [hgt.ne, hgt.not_gt, hgt.not_ge]
  exact congrArg s.setPixels hpb

/-- The loop over every index of the buffer has filled it. -/
theorem filledBelow_length (v : Native) (s : State) : s.filledBelow s.pb.length v = pbFill v s := by
  have hpb : (s.filledBelow s.pb.length v).pb = (pbFill v s).pb := by
    apply List.ext_getElem?
    intro i
    rw [filledBelow_getElem?]
    obtain hlt | hge := lt_or_ge i s.pb.length
    · rw [pbFill_getElem? hlt, List.getElem?_eq_getElem hlt, Option.map_some, if_pos hlt]
    · rw [List.getElem?_eq_none hge, List.getElem?_eq_none (by rwa [pbFill_length])]; rfl
  exact congrArg s.setPixels hpb

theorem pbSet_of_lt (hi : i < s.ledCount.toNat) : pbSet i v s = .ok (s.pixelWritten i v) :=
  if_pos ((indexInRange_iff _ _).2 (by omega))

/-- The loop raises nothing up to `N`: each index is in range. -/
theorem foldlM_pbSet_range {n : Nat} (hn : n ≤ s.ledCount.toNat) :
    (List.range n).foldlM (fun (u : State) (i : Nat) => pbSet i v u) s = .ok (s.filledBelow n v) := by
  induction n with
  | zero => rw [filledBelow_zero]; rfl
  | succ n ih =>
    have hlt : n < (s.filledBelow n v).ledCount.toNat := hn
    rw [List.range_succ, List.foldlM_append, ih (Nat.le_of_succ_le hn), ← filledBelow_succ]
    simp only [List.foldlM_cons, List.foldlM_nil, bind_pure]
    exact pbSet_of_lt hlt

/-! ### R126, R127: FILL and ALLOFF -/

theorem exec_fill_uninit (hp : s.phase = .uninit) : exec (.fill r g b a) s = .refused .beforeInit :=
  whenReady_of_uninit hp _

/-- R127: intensity 0 everywhere makes every pixel neutral. -/
theorem pbFill_off (ho : s.order.legal) (a : Byte) (q : BitVec 15) :
    (pbFill (nativeOf 0 0 0 a q) s).pb = List.replicate s.pb.length neutralPixel := by
  rw [nativeOf_off]
  exact List.map_eq_replicate_iff.2 fun px _ => px.putNative_same ho 0x80

/-- The bytes of `n` neutral pixels. -/
theorem encodeFrame_neutral (n : Nat) :
    encodeFrame (List.replicate n neutralPixel) = List.replicate (3 * n) 0x80 ++ [0x00, 0x00] := by
  have hbytes : neutralPixel.bytes = List.replicate 3 0x80 := rfl
  rw [encodeFrame, List.flatMap_replicate, hbytes, List.flatten_replicate_replicate, Nat.mul_comm]; rfl

/-- Every byte of a buffer of neutral pixels is 0x80. -/
theorem readByte_neutral {n addr : Nat} (hpb : s.pb = List.replicate n neutralPixel) (h : addr < 3 * n) :
    s.readByte addr = some 0x80 := by
  have hpx : s.pb[addr / 3]? = some neutralPixel := by
    rw [hpb]; exact List.getElem?_replicate_of_lt (by omega)
  rw [State.readByte, hpx]
  exact List.getElem?_replicate_of_lt (n := 3) (Nat.mod_lt _ (by omega))

end Sys2Proof.Machine
end

section
open Sys2Proof Sys2Proof.Machine

/-- Settles O21: the loop up to `N` has written the pixels below `N`, which are the whole buffer. -/
theorem fillIsTheLoopOfPixelWrites : Obligations.FillIsTheLoopOfPixelWrites := by
  unfold Obligations.FillIsTheLoopOfPixelWrites
  intro s v hlen
  rw [foldlM_pbSet_range le_rfl, ← hlen, filledBelow_length]

/-- Settles O15: the product's bound keeps the quotient in a byte. -/
theorem gammaIndexIsTheFlooredProduct : Obligations.GammaIndexIsTheFlooredProduct := by
  unfold Obligations.GammaIndexIsTheFlooredProduct
  intro c a q hq
  have hle := gammaProduct_le (c := c) (a := a) hq
  refine ⟨by omega, toNat_gammaIndex hq, ?_, gammaIndex_eq_zero, ?_⟩
  · rw [toNat_gammaIndex hq, floor_gammaProduct]
  · rintro rfl hone
    exact gammaIndex_full hone

/-- Settles O17: the registers by the list of writers (R20); the bytes by the one pixel written, if any. -/
theorem setpxFrame : Obligations.SetpxFrame := by
  unfold Obligations.SetpxFrame
  intro s t idx r g b a h
  obtain ⟨horder, hbright, -, hconstr, -⟩ := onlyTheNamedCommandsWrite _ _ _ h
  refine ⟨hconstr nofun, horder nofun, hbright nofun nofun, exec_sameBus_of_quiet h rfl, exec_pending h,
    exec_pb_length h nofun, ?_⟩
  obtain ⟨-, ⟨hi, rfl⟩ | ⟨-, rfl⟩⟩ := execSetpx_eq_next h
  · refine ⟨fun addr hout => ?_, fun hi' => ?_⟩
    · exact pixelWritten_readByte_outside hout
    · rw [hi] at hi'; cases hi'
  · exact ⟨fun _ _ => rfl, fun _ _ => rfl⟩

/-- Settles O16: by phase and index; what the completing SETPX leaves alone is its frame (O17). -/
theorem setpxWritesOnePixel : Obligations.SetpxWritesOnePixel := by
  unfold Obligations.SetpxWritesOnePixel
  intro s idx r g b a
  refine ⟨exec_setpx_uninit, fun hp hout => ?_, fun hs hp h0 hlt => ?_⟩
  · have hrun := exec_setpx_outOfRange (r := r) (g := g) (b := b) (a := a) hp ((indexInRange_eq_false _ _).2 hout)
    obtain ⟨hblock, hbus⟩ := sameBlock_and_sameBus_logResponse (s := s) (responseWord (.error .outOfRange))
    exact ⟨_, hrun, hblock, hbus, rfl, rfl⟩
  · have hrun := exec_setpx (r := r) (g := g) (b := b) (a := a) hp ((indexInRange_iff _ _).2 ⟨h0, hlt⟩)
    have hk : (pixelIndex idx).toNat < s.pb.length := by
      rw [hs.pixels hp]; exact (Int.toNat_lt h0).2 hlt
    obtain ⟨hr, hg, hb⟩ := holdsNative_of_putNative hs.order
      (pixelWritten_getElem? (v := nativeOf r g b a s.bright) hk)
    obtain ⟨hconstr, horder, hbright, hbus, hpending, -, hout, -⟩ := setpxFrame _ _ _ _ _ _ _ hrun
    exact ⟨_, hrun, hr, hg, hb, hout, hconstr, horder, hbright, hbus, rfl, hpending⟩

/-- Settles O18: at alpha and brightness 1.0 the native value is the operands' gamma entries. -/
theorem setpxRoundTrip : Obligations.SetpxRoundTrip := by
  unfold Obligations.SetpxRoundTrip
  intro s i r g b hs hp hone hi
  have hk : i < s.pb.length := by rwa [hs.pixels hp]
  have hrun := exec_asmSetpx (r := r) (g := g) (b := b) (a := 255) hp hi
  rw [hone, nativeOf_full] at hrun
  exact ⟨_, hrun, holdsNative_of_putNative hs.order (pixelWritten_getElem? hk)⟩

/-- Settles O19: the native value of intensity 0 is 0x80 in each channel, so no order tells it apart. -/
theorem setpxOffIsNeutral : Obligations.SetpxOffIsNeutral := by
  unfold Obligations.SetpxOffIsNeutral
  intro s i hs hp hi
  have hk : i < s.pb.length := by rwa [hs.pixels hp]
  have hrun := exec_asmSetpx (r := 0) (g := 0) (b := 0) (a := 255) hp hi
  rw [nativeOf_off] at hrun
  refine ⟨_, hrun, (pixelWritten_getElem? hk).trans ?_⟩
  rw [Pixel.putNative_same hs.order]

/-- Settles O20: the registers by the list of writers (R20), the pixels by the fill, the frame and the response by
the update that ends it. -/
theorem fillWritesEveryPixelAndSends : Obligations.FillWritesEveryPixelAndSends := by
  unfold Obligations.FillWritesEveryPixelAndSends
  intro s r g b a
  refine ⟨exec_fill_uninit, fun hs hp res hres => ?_⟩
  have hrun := exec_fill (r := r) (g := g) (b := b) (a := a) hp hres
  obtain ⟨horder, hbright, -, hconstr, -⟩ := onlyTheNamedCommandsWrite _ _ _ hrun
  refine ⟨_, hrun, fun i hi => ?_, exec_pb_length hrun nofun, hconstr nofun, horder nofun, hbright nofun nofun,
    ⟨rfl, rfl, rfl, rfl⟩, rfl, rfl⟩
  have hk : i < s.pb.length := by rwa [hs.pixels hp]
  exact holdsNative_of_putNative hs.order (pbFill_getElem? (v := nativeOf r g b a s.bright) hk)

/-- Settles O22: the buffer that FILL leaves and sends is of neutral pixels. -/
theorem allOffSendsNeutralFrame : Obligations.AllOffSendsNeutralFrame := by
  unfold Obligations.AllOffSendsNeutralFrame
  intro s res hs hp hres
  have hoff := pbFill_off hs.order 255 s.bright
  rw [hs.pixels hp] at hoff
  refine ⟨_, exec_fill hp hres, fun addr => readByte_neutral hoff, ?_⟩
  rw [← encodeFrame_neutral, ← hoff]; rfl
end

section
/-! PROOFS. The encoder and the update: every transaction is one complete frame under the handle that the one
`BusOpen` returned (`42_encode_update.md` R142, `60_exceptions.md` R200, R202), the bytes of a frame while the buffer
holds gamma entries (R145), and UPDATE (R144). -/

namespace Sys2Proof.Machine

variable {s t u : State} {i : Instr}

/-! ### R145: the frame of a buffer -/

/-- The frame ends in the trailer, behind three bytes for each pixel. -/
theorem isFrame_encodeFrame (px : List Pixel) : isFrame px.length (encodeFrame px) := by
  have hlen := encodeFrame_length px
  have hpix : (px.flatMap Pixel.bytes).length = 3 * px.length := by
    rw [encodeFrame, List.length_append] at hlen
    exact Nat.add_right_cancel hlen
  exact ⟨hlen, List.drop_left' hpix⟩

/-- A table entry is the entry of some index. -/
theorem exists_gamma_eq {v : Byte} (h : v ∈ gammaTable) : ∃ j, gamma j = v := by
  obtain ⟨k, hk, rfl⟩ := List.getElem_of_mem h
  have hk' : k < 256 := gammaTable_length ▸ hk
  exact ⟨BitVec.ofFin ⟨k, hk'⟩, gamma_eq_getElem _⟩

/-- A pixel byte of the frame is a byte of the buffer (R141). -/
theorem encodeFrame_getElem?_mem {px : List Pixel} {k : Nat} (hk : k < 3 * px.length) :
    ∃ v, (encodeFrame px)[k]? = some v ∧ ∃ x ∈ px, v ∈ x.bytes := by
  have hdiv : k / 3 < px.length := Nat.div_lt_of_lt_mul hk
  have hmod : k % 3 < 3 := Nat.mod_lt _ (by omega)
  obtain ⟨v, hv⟩ := Pixel.exists_byteAt px[k / 3] hmod
  have hat := (encodeFrame_getElem?_pixel hdiv hmod).trans hv
  rw [Nat.div_add_mod] at hat
  exact ⟨v, hat, px[k / 3], List.getElem_mem hdiv, List.mem_of_getElem? hv⟩

/-! ### R200, R202, R221: the invariant of the bus -/

/-- What leaves the construction and the bus alone keeps the invariant. -/
theorem State.BusInv.of_sameBus (hc : SameConstruction s t) (hb : SameBus s t) (hs : s.BusInv) : t.BusInv := by
  obtain ⟨hparams, hphase, hcount, hdevice, hhandle⟩ := hc
  obtain ⟨hbus, hopens, -, -⟩ := hb
  constructor
  · rw [hphase, hbus, hopens]; exact hs.before
  · rw [hphase, hopens, hdevice, hparams, hhandle]; exact hs.opened
  · rw [hbus, hhandle, hcount]; exact hs.frames

/-- INIT opens the bus, on which nothing stands before it; no other command's writes touch it. -/
theorem State.BusInv.of_writes (h : Writes s i u) (hs : s.BusInv) : u.BusInv := by
  by_cases hi : ∃ n dev, i = .init n dev
  · obtain ⟨n, dev, rfl⟩ := hi
    have hbus := h.bus
    cases h with
    | init _ _ hp =>
      obtain ⟨hempty, hclosed⟩ := hs.before hp
      refine ⟨nofun, fun _ => ?_, ?_⟩
      · change s.opens ++ _ = _
        rw [hclosed]; rfl
      · rw [hbus, hempty]; exact nofun
  · have hi : ∀ n dev, i ≠ .init n dev := fun n dev e => hi ⟨n, dev, e⟩
    exact hs.of_sameBus (h.sameConstruction hi) (h.sameBus hi)

/-- A frame is sent in READY only. -/
theorem Writes.ready_of_sendsFrame (h : Writes s i u) (hsend : sendsFrame i = true) : u.phase = .ready := by
  cases h with
  | init n dev => rfl
  | updbr br hp => exact hp
  | updbrInvalid br hp => exact hp
  | fill r g b a hp => exact hp
  | update hp => exact hp
  | _ => cases hsend

/-- The frame sent at the end of a command is complete, because the buffer has `N` pixels, and goes out under the
stored handle. -/
theorem State.BusInv.of_sent (hinv : s.Inv) (hp : s.phase = .ready) (h : Ends s true t) (hs : s.BusInv) :
    t.BusInv := by
  obtain ⟨⟨hparams, hphase, hcount, hdevice, hhandle⟩, -, -, hpb⟩ := h.sameBlock
  obtain ⟨r, hbus⟩ := h.bus_of_sent
  have hframe : isFrame s.ledCount.toNat (encodeFrame s.pb) := hinv.pixels hp ▸ isFrame_encodeFrame s.pb
  refine ⟨fun hp' => ?_, fun _ => ?_, ?_⟩
  · rw [hphase, hp] at hp'; cases hp'
  · rw [h.opens, hdevice, hparams, hhandle]; exact hs.opened hp
  · rw [hbus, hhandle, hcount, hpb]
    exact List.forall_mem_append.2 ⟨hs.frames, List.forall_mem_singleton.2 ⟨rfl, hframe⟩⟩

/-- A completing command keeps the invariant: while writing, and at its end with or without a frame. -/
theorem State.BusInv.of_exec (hinv : s.Inv) (hs : s.BusInv) (h : exec i s = .next t) : t.BusInv := by
  obtain ⟨u, hu, hend⟩ := exec_eq_next h
  have hubus := hs.of_writes hu
  cases hsend : sendsFrame i with
  | true =>
    rw [hsend] at hend
    exact hubus.of_sent (.of_writes hu hinv) (hu.ready_of_sendsFrame hsend) hend
  | false =>
    rw [hsend] at hend
    exact hubus.of_sameBus hend.sameBlock.construction hend.sameBus_of_quiet

/-! ### R144: UPDATE -/

/-- UPDATE in READY sends the buffer and ends as the bus answers, whatever that is. -/
theorem exec_update_sends {r : BusResult} (hp : s.phase = .ready) (hr : s.nextReply = .answer r) :
    ∃ t, exec .update s = .next t ∧ SameBlock s t ∧ SentFrame r s t ∧ Responded (endingOfBus r) s t :=
  ⟨_, exec_update hp hr, (Ends.sent r hr).sameBlock, ⟨rfl, rfl, rfl, rfl⟩, rfl, rfl⟩

/-- A completing UPDATE has changed the bus only, by the frame of the buffer it found. -/
theorem exec_update_eq_next (h : exec .update s = .next t) :
    SameBlock s t ∧ ∃ x, t.bus = s.bus ++ [x] ∧ x.bytes = encodeFrame s.pb := by
  obtain ⟨u, hu, hend⟩ := exec_eq_next h
  cases hu with
  | update hp =>
    obtain ⟨r, hbus⟩ := hend.bus_of_sent
    exact ⟨hend.sameBlock, _, hbus, congrArg encodeFrame hend.sameBlock.pb⟩

end Sys2Proof.Machine
end

section
open Sys2Proof Sys2Proof.Machine

/-- Settles O45: taking the word leaves the bus alone, and the command it decodes to keeps the invariant. -/
theorem stepKeepsTheBusInvariant : Obligations.StepKeepsTheBusInvariant := by
  unfold Obligations.StepKeepsTheBusInvariant
  intro s t hinv hs h
  obtain ⟨-, rfl⟩ | ⟨w, ws, i, -, -, he⟩ := step_eq_next h
  · exact hs
  · have hport := sameBlock_setPending (s := s) ws
    exact .of_exec (hinv.of_sameBlock hport) (hs.of_sameBus hport.construction ⟨rfl, rfl, rfl, rfl⟩) he

/-- Settles O24: a pixel byte of the frame is a byte of the buffer, so an entry of the table, and none is below
0x80. -/
theorem nativeFramesHaveNoLatchByte : Obligations.NativeFramesHaveNoLatchByte := by
  unfold Obligations.NativeFramesHaveNoLatchByte
  intro s hs k hk
  obtain ⟨v, hat, px, hpx, hv⟩ := encodeFrame_getElem?_mem hk
  obtain ⟨j, rfl⟩ := exists_gamma_eq (hs px hpx v hv)
  exact ⟨_, hat, le_gamma j⟩

/-- Settles O25: one lemma for both answers of the bus. -/
theorem updateSendsOneFrame : Obligations.UpdateSendsOneFrame := by
  unfold Obligations.UpdateSendsOneFrame
  intro s
  refine ⟨fun hp => ?_, fun hp hr => ?_, fun hp e sent hr => ?_⟩
  · exact whenReady_of_uninit hp _
  · exact exec_update_sends hp hr
  · exact exec_update_sends hp hr

/-- Settles O26: the block is the same, and the bus has the one frame more. -/
theorem updateFrame : Obligations.UpdateFrame := by
  unfold Obligations.UpdateFrame
  intro s t h
  obtain ⟨⟨hconstr, horder, hbright, hpb⟩, x, hbus, -⟩ := exec_update_eq_next h
  exact ⟨hconstr, horder, hbright, State.readByte_congr hpb, exec_pending h, exec_opens h nofun, x, hbus⟩

/-- Settles O27: the second UPDATE finds the buffer the first one left, which is the buffer the first one found. -/
theorem repeatedUpdatesSendTheSameFrame : Obligations.RepeatedUpdatesSendTheSameFrame := by
  unfold Obligations.RepeatedUpdatesSendTheSameFrame
  intro s t u hfirst hsecond
  obtain ⟨hblock, x, hbus, hx⟩ := exec_update_eq_next hfirst
  obtain ⟨hblock', y, hbus', hy⟩ := exec_update_eq_next hsecond
  refine ⟨hblock'.pb.trans hblock.pb, x, y, ?_, ?_, ?_⟩
  · rw [hbus', hbus, List.append_assoc]; rfl
  · rw [hx, hy, hblock.pb]
  · rw [hx]; exact encodeFrame_length s.pb
end

section
/-! PROOFS. The control commands of `43_control.md`: INIT (R160, R161), SETMB (R162), UPDBR with the rescale of a byte
(R164, R165), SETORD (R166). -/

namespace Sys2Proof.Machine

variable {s t : State} {br : BitVec 16} {q : Nat} {v : Byte}

/-! ### R164, R165: the rescale of a byte -/

/-- A factor of at most 1.0 keeps the quotient in a byte, so that nothing is cut off. -/
theorem toNat_rescaleByte (hq : q ≤ 16384) : (rescaleByte q v).toNat = v.toNat * q / 16384 := by
  have hle : v.toNat * q ≤ 255 * 16384 := Nat.mul_le_mul (Nat.le_of_lt_succ v.isLt) hq
  rw [rescaleByte, Nat.shiftRight_eq_div_pow]
  exact Nat.mod_eq_of_lt (by omega)

/-- A factor below 1.0 lowers every byte that is not zero: the product stays below `v * 16384`. -/
theorem rescaleByte_lt (hq : q < 16384) (hv : 1 ≤ v.toNat) : (rescaleByte q v).toNat < v.toNat := by
  rw [toNat_rescaleByte hq.le]
  exact Nat.div_lt_of_lt_mul (by rw [Nat.mul_comm]; exact Nat.mul_lt_mul_of_pos_right hq hv)

/-- A factor of at most 0.5 clears bit 7: the product stays below `0x80 * 16384`. -/
theorem rescaleByte_lt_highBit (hq : q ≤ 8192) : (rescaleByte q v).toNat < 0x80 := by
  have hle : v.toNat * q ≤ 255 * 8192 := Nat.mul_le_mul (Nat.le_of_lt_succ v.isLt) hq
  rw [toNat_rescaleByte (hq.trans (by omega))]
  omega

theorem rescaleByte_zero (v : Byte) : rescaleByte 0 v = 0 := by
  rw [rescaleByte, Nat.mul_zero]; rfl

/-- A valid operand as a natural number is at most 1.0. -/
theorem toNat_brightOperand_le (hv : brightValid (brightOperand br) = true) : (brightOperand br).toNat ≤ 16384 :=
  Int.toNat_le.2 ((brightValid_iff _).1 hv).2

/-- For a valid operand the shift of R164 is the floor of the rational product. -/
theorem toNat_rescaleByte_eq_floor (hv : brightValid (brightOperand br) = true) (v : Byte) :
    ((rescaleByte (brightOperand br).toNat v).toNat : ℤ) = ⌊(v.toNat : ℚ) * valQ br⌋ := by
  obtain ⟨h0, -⟩ := (brightValid_iff _).1 hv
  have hq : ((brightOperand br).toNat : ℚ) = brightOperand br := by exact_mod_cast Int.toNat_of_nonneg h0
  have hfrac : (v.toNat : ℚ) * valQ br = ((v.toNat * (brightOperand br).toNat : ℕ) : ℚ) / (16384 : ℕ) := by
    rw [valQ, ← hq]; push_cast; ring
  rw [hfrac, Rat.floor_natCast_div_natCast, toNat_rescaleByte (toNat_brightOperand_le hv), Int.natCast_div]

/-! ### The rescale of the buffer -/

theorem Pixel.byteAt_rescale (q : Nat) (px : Pixel) (p : Nat) :
    (px.rescale q).byteAt p = (px.byteAt p).map (rescaleByte q) := by
  have hbytes : (px.rescale q).bytes = px.bytes.map (rescaleByte q) := rfl
  rw [Pixel.byteAt, Pixel.byteAt, hbytes, List.getElem?_map]

/-- The rescale acts on every byte of the linear view (R52). -/
theorem pbRescale_readByte (q : Nat) (s : State) (addr : Nat) :
    (pbRescale q s).readByte addr = (s.readByte addr).map (rescaleByte q) := by
  rw [State.readByte, State.readByte, pbRescale, State.setPixels_pb, List.getElem?_map]
  cases s.pb[addr / 3]? with
  | none => rfl
  | some px => exact px.byteAt_rescale q _

/-- A completing UPDBR with a valid operand has rescaled every byte (R164). -/
theorem exec_updbr_readByte (h : exec (.updbr br) s = .next t) (hv : brightValid (brightOperand br) = true)
    (addr : Nat) : t.readByte addr = (s.readByte addr).map (rescaleByte (brightOperand br).toNat) := by
  obtain ⟨u, hu, hend⟩ := exec_eq_next h
  rw [State.readByte_congr hend.sameBlock.pb]
  cases hu with
  | updbr => exact pbRescale_readByte _ _ addr
  | updbrInvalid _ _ hv' => rw [hv] at hv'; cases hv'

/-! ### The control commands by phase -/

theorem exec_setmb_uninit (hp : s.phase = .uninit) : exec (.setmb br) s = .refused .beforeInit :=
  whenReady_of_uninit hp _

theorem exec_updbr_uninit (hp : s.phase = .uninit) : exec (.updbr br) s = .refused .beforeInit :=
  whenReady_of_uninit hp _

/-- The encoding is looked at first (R197), so the phase decides for a permutation only. -/
theorem exec_setord_uninit {rp gp bp : BitVec 2} (hperm : isPermutation rp gp bp = true) (hp : s.phase = .uninit) :
    exec (.setord rp gp bp) s = .refused .beforeInit :=
  (if_pos hperm).trans (whenReady_of_uninit hp _)

/-- A command that completes with its response alone leaves the block and the bus. -/
theorem exec_responds_only {i : Instr} {en : Ending} (h : exec i s = .next (s.logResponse (responseWord en))) :
    ∃ t, exec i s = .next t ∧ SameBlock s t ∧ SameBus s t ∧ Responded en s t :=
  have ⟨hblock, hbus⟩ := sameBlock_and_sameBus_logResponse _
  ⟨_, h, hblock, hbus, rfl, rfl⟩

/-- A valid UPDBR in READY sends the rescaled buffer and ends as the bus answers. -/
theorem exec_updbr_sends {r : BusResult} (hp : s.phase = .ready) (hv : brightValid (brightOperand br) = true)
    (hr : s.nextReply = .answer r) :
    ∃ t, exec (.updbr br) s = .next t ∧ t.pb = (s.rescaled br).pb ∧ (t.bright.toNat : ℤ) = brightOperand br ∧
      SentFrame r s t ∧ Responded (endingOfBus r) s t :=
  ⟨_, exec_updbr hp hv hr, rfl, brightStored_toNat hv, ⟨rfl, rfl, rfl, rfl⟩, rfl, rfl⟩

/-- INIT in UNINIT leaves `N` neutral pixels, READY, and one `BusOpen` whose handle it sends its frame under. -/
theorem exec_init_sends {n dev : BitVec 16} {r : BusResult} (hp : s.phase = .uninit) (hr : s.nextReply = .answer r) :
    ∃ t, exec (.init n dev) s = .next t ∧ t.phase = .ready ∧ t.ledCount = n ∧ t.device = dev ∧
      t.pb = List.replicate n.toNat neutralPixel ∧ t.opens = s.opens ++ [⟨dev, busConfig s.params, t.handle⟩] ∧
      t.bus = s.bus ++ [⟨t.handle, encodeFrame t.pb, r⟩] ∧ Responded (endingOfBus r) s t :=
  ⟨_, exec_init hp hr, rfl, rfl, rfl, rfl, rfl, rfl, rfl, rfl⟩

end Sys2Proof.Machine
end

section
open Sys2Proof Sys2Proof.Machine

/-- Settles O31: what INIT leaves, with the frame of `N` neutral pixels written out; the items it does not write by the
list of writers (R20). -/
theorem initConstructsTheBlock : Obligations.InitConstructsTheBlock := by
  unfold Obligations.InitConstructsTheBlock
  intro s n dev
  refine ⟨exec_init_ready, fun hp res hres => ?_⟩
  obtain ⟨t, hrun, hphase, hcount, hdevice, hpb, hopens, hbus, hresp⟩ :=
    exec_init_sends (n := n) (dev := dev) hp hres
  obtain ⟨horder, hbright, -, -, hparams⟩ := onlyTheNamedCommandsWrite _ _ _ hrun
  rw [hpb, encodeFrame_neutral] at hbus
  exact ⟨t, hrun, hphase, hcount, hdevice, exec_init_pb_length hrun, fun _ => readByte_neutral hpb, hopens, hparams,
    horder nofun, hbright nofun nofun, hbus, hresp⟩

/-- Settles O32: by phase and operand; all but `BRIGHT` and the response is SETMB's frame. -/
theorem setmbStoresAValidBrightness : Obligations.SetmbStoresAValidBrightness := by
  unfold Obligations.SetmbStoresAValidBrightness
  intro s br
  refine ⟨exec_setmb_uninit, fun hp h0 h1 => ?_, fun hp hout => ?_⟩
  · have hv : brightValid (brightOperand br) = true := (brightValid_iff _).2 ⟨h0, h1⟩
    have hrun := exec_setmb hp hv
    obtain ⟨horder, -, hpb, -⟩ := onlyTheNamedCommandsWrite _ _ _ hrun
    obtain ⟨hconstr, -, hbus, -⟩ := exec_frame_of_not_publishes hrun rfl nofun
    exact ⟨_, hrun, brightStored_toNat hv, hpb nofun nofun nofun nofun, horder nofun, hconstr, hbus, rfl, rfl⟩
  · exact exec_responds_only (exec_setmb_invalid hp ((brightValid_eq_false _).2 hout))

/-- Settles O33: by phase and operand; a valid one rescales every byte of the linear view by the floored product. -/
theorem updbrRescalesEveryByteAndSends : Obligations.UpdbrRescalesEveryByteAndSends := by
  unfold Obligations.UpdbrRescalesEveryByteAndSends
  intro s br
  refine ⟨exec_updbr_uninit, fun hp h0 h1 res hres => ?_, fun hp hout => ?_⟩
  · have hv : brightValid (brightOperand br) = true := (brightValid_iff _).2 ⟨h0, h1⟩
    obtain ⟨t, hrun, -, hbright, hsent, hresp⟩ := exec_updbr_sends hp hv hres
    obtain ⟨horder, -, -, hconstr, -⟩ := onlyTheNamedCommandsWrite _ _ _ hrun
    refine ⟨t, hrun, hbright, exec_pb_length hrun nofun, fun addr v hread => ?_, horder nofun, hconstr nofun, hsent,
      hresp⟩
    have hread' := exec_updbr_readByte hrun hv addr
    rw [hread] at hread'
    exact ⟨_, hread', toNat_rescaleByte_eq_floor hv v⟩
  · exact exec_responds_only (exec_updbr_invalid hp ((brightValid_eq_false _).2 hout))

/-- Settles O34: one bound of the product for each clause. -/
theorem rescaleLosesTheHighBit : Obligations.RescaleLosesTheHighBit := by
  unfold Obligations.RescaleLosesTheHighBit
  intro q v hq
  refine ⟨fun hv => Nat.le_sub_one_of_lt (rescaleByte_lt hq hv), rescaleByte_lt_highBit, ?_⟩
  rintro rfl
  exact rescaleByte_zero v

/-- Settles O35: the rescale by 1.0 is the identity on the buffer, and the update follows all the same. -/
theorem updbrByOneKeepsTheBytes : Obligations.UpdbrByOneKeepsTheBytes := by
  unfold Obligations.UpdbrByOneKeepsTheBytes
  intro s res hp hres
  have hone : brightOperand 0x4000 = 16384 := by decide
  obtain ⟨t, hrun, hpb, hbright, hsent, -⟩ := exec_updbr_sends (br := 0x4000) hp (by decide) hres
  rw [hone] at hbright
  exact ⟨t, hrun, hpb.trans (State.rescaled_pb_of_one hone), by exact_mod_cast hbright, hsent⟩

/-- Settles O36: each UPDBR rescales the byte it finds, and each valid factor gives the floored quotient. -/
theorem updbrCompounds : Obligations.UpdbrCompounds := by
  unfold Obligations.UpdbrCompounds
  intro s t u x y _ hx0 hx1 hy0 hy1 hfirst hsecond addr v hread
  have hvx : brightValid (brightOperand x) = true := (brightValid_iff _).2 ⟨hx0, hx1⟩
  have hvy : brightValid (brightOperand y) = true := (brightValid_iff _).2 ⟨hy0, hy1⟩
  have hread' := exec_updbr_readByte hsecond hvy addr
  rw [exec_updbr_readByte hfirst hvx, hread] at hread'
  refine ⟨_, hread', ?_⟩
  rw [toNat_rescaleByte (toNat_brightOperand_le hvy), toNat_rescaleByte (toNat_brightOperand_le hvx)]; rfl

/-- Settles O37: by phase; all but `ORDER` and the response is SETORD's frame. -/
theorem setordReplacesTheOrder : Obligations.SetordReplacesTheOrder := by
  unfold Obligations.SetordReplacesTheOrder
  intro s rp gp bp hset
  have hperm := (isPermutation_iff rp gp bp).2 hset
  refine ⟨exec_setord_uninit hperm, fun hp => ?_⟩
  have hrun := exec_setord hp hperm
  obtain ⟨-, hbright, hpb, -⟩ := onlyTheNamedCommandsWrite _ _ _ hrun
  obtain ⟨hconstr, -, hbus, -⟩ := exec_frame_of_not_publishes hrun rfl nofun
  exact ⟨_, hrun, rfl, hpb nofun nofun nofun nofun, hbright nofun nofun, hconstr, hbus, rfl, rfl⟩
end

section
/-! The colour wheel (`44_wheel.md`). Its three segments are one segment, red to green, turned: 128 positions further
along, each channel's value stands in the next channel. So a fact of the wheel is shown on the first segment and
carried along by the turn. -/

namespace Sys2Proof.Machine

/-! ### The turn of the wheel -/

/-- Each channel's value passed on to the next: red to green, green to blue, blue to red. -/
def turnColor (c : Nat × Nat × Nat) : Nat × Nat × Nat := (c.2.2, c.1, c.2.1)

/-- The channels of a colour as a list, for what does not depend on their order. -/
def channels (c : Nat × Nat × Nat) : List Nat := [c.1, c.2.1, c.2.2]

/-- Two colours that differ by at most 1 in each channel (R182). -/
def NearColors (c d : Nat × Nat × Nat) : Prop :=
  d.1 ≤ c.1 + 1 ∧ c.1 ≤ d.1 + 1 ∧ d.2.1 ≤ c.2.1 + 1 ∧ c.2.1 ≤ d.2.1 + 1 ∧ d.2.2 ≤ c.2.2 + 1 ∧ c.2.2 ≤ d.2.2 + 1

theorem channels_turnColor_perm (c : Nat × Nat × Nat) : (channels (turnColor c)).Perm (channels c) :=
  List.perm_append_comm (l₁ := [c.2.2]) (l₂ := [c.1, c.2.1])

theorem NearColors.turnColor {c d : Nat × Nat × Nat} (h : NearColors c d) :
    NearColors (turnColor c) (turnColor d) :=
  have ⟨hr, hr', hg, hg', hb, hb'⟩ := h
  ⟨hb, hb', hr, hr', hg, hg'⟩

variable {k p : Nat}

theorem wheelColor_redToGreen (hk : k < 128) : wheelColor k = (127 - k, k, 0) := by
  rw [wheelColor, if_pos (Nat.le_of_lt_succ hk), Nat.mod_eq_of_lt hk]

/-- The end position 384 is a turn of 256, so the turn reaches over all of the wheel. -/
theorem wheelColor_add_128 (hp : p ≤ 256) : wheelColor (p + 128) = turnColor (wheelColor p) := by
  obtain h | h | rfl : p ≤ 127 ∨ (127 < p ∧ p ≤ 255) ∨ p = 256 := by omega
  · rw [wheelColor, wheelColor, if_neg (by omega), if_pos (by omega), if_pos h, Nat.add_mod_right]; rfl
  · rw [wheelColor, wheelColor, if_neg (by omega), if_neg (by omega), if_pos (by omega), if_neg (by omega),
      if_pos h.2, Nat.add_mod_right]; rfl
  · rfl

theorem wheelColor_greenToBlue (hk : k < 128) : wheelColor (128 + k) = (0, 127 - k, k) := by
  rw [Nat.add_comm, wheelColor_add_128 (by omega), wheelColor_redToGreen hk]; rfl

theorem wheelColor_blueToRed (hk : k < 128) : wheelColor (256 + k) = (k, 0, 127 - k) := by
  rw [show 256 + k = 128 + k + 128 by omega, wheelColor_add_128 (by omega), wheelColor_greenToBlue hk]; rfl

/-- A property of the first segment that the turn keeps holds on the whole wheel. -/
theorem wheel_induction {P : (p : Nat) → p ≤ 384 → Prop} (first : ∀ (k : Nat) (hk : k < 128), P k (by omega))
    (turn : ∀ (p : Nat) (hp : p ≤ 256), P p (by omega) → P (p + 128) (by omega)) (p : Nat) (hp : p ≤ 384) : P p hp := by
  induction p using Nat.strongRecOn with
  | ind p ih =>
    obtain h | h := Nat.lt_or_ge p 128
    · exact first p h
    · obtain ⟨q, rfl⟩ := Nat.exists_eq_add_of_le' h
      exact turn q (by omega) (ih q (by omega) (by omega))

/-! ### What holds at every position -/

/-- At every position one channel is falling, one rising and one off. -/
theorem channels_wheelColor_perm (hp : p ≤ 384) :
    (channels (wheelColor p)).Perm [127 - p % 128, p % 128, 0] := by
  induction p, hp using wheel_induction with
  | first k hk => rw [wheelColor_redToGreen hk, Nat.mod_eq_of_lt hk]; rfl
  | turn p hp ih =>
    rw [wheelColor_add_128 hp, Nat.add_mod_right]
    exact (channels_turnColor_perm _).trans ih

theorem wheelColor_sum (hp : p ≤ 384) :
    (wheelColor p).1 + (wheelColor p).2.1 + (wheelColor p).2.2 = 127 := by
  have hsum := (channels_wheelColor_perm hp).sum_eq
  simp only [channels, List.sum_cons, List.sum_nil] at hsum
  omega

theorem count_zero_segment (hk : k < 128) :
    [127 - k, k, 0].count 0 = if k = 0 ∨ k = 127 then 2 else 1 := by
  obtain rfl | rfl | ⟨h0, h127⟩ : k = 0 ∨ k = 127 ∨ (k ≠ 0 ∧ k ≠ 127) := by omega
  · rfl
  · rfl
  · rw [List.count_cons_of_ne (by omega), List.count_cons_of_ne h0, if_neg (by omega)]; rfl

/-- Within a segment the falling and the rising channel move by 1; where a segment begins, the colour stays. -/
theorem wheelColor_succ_near (hp : p ≤ 384) (hsucc : p + 1 ≤ 384) :
    NearColors (wheelColor p) (wheelColor (p + 1)) := by
  induction p, hp using wheel_induction with
  | first k hk =>
    obtain h | rfl : k + 1 < 128 ∨ k = 127 := by omega
    · rw [wheelColor_redToGreen hk, wheelColor_redToGreen h]
      dsimp only [NearColors]; omega
    · unfold NearColors; decide
  | turn p hp ih =>
    rw [Nat.add_right_comm, wheelColor_add_128 hp, wheelColor_add_128 (by omega)]
    exact (ih (by omega)).turnColor

/-! ### The clamp of the operand -/

variable {pos : Int}

theorem wheelClamp_of_nonpos (h : pos ≤ 0) : wheelClamp pos = 0 := by
  unfold wheelClamp; split_ifs <;> omega

theorem wheelClamp_of_ge (h : 384 ≤ pos) : wheelClamp pos = 384 := by
  unfold wheelClamp; split_ifs <;> omega

theorem wheelClamp_of_eq (h : pos = p) (hp : p ≤ 384) : wheelClamp pos = p := by
  unfold wheelClamp; split_ifs <;> omega

theorem wheelClamp_le (pos : Int) : wheelClamp pos ≤ 384 := by
  unfold wheelClamp; split_ifs <;> omega

end Sys2Proof.Machine
end

section
open Sys2Proof Sys2Proof.Machine

/-- Settles O41: WHEEL completes with its response alone; the channels are bounded by their sum, and the colour is read
off the segment of the clamped position. -/
theorem wheelRespondsWithItsColour : Obligations.WheelRespondsWithItsColour := by
  unfold Obligations.WheelRespondsWithItsColour
  intro s pos
  obtain ⟨t, hrun, hblock, hbus, hresp⟩ := exec_responds_only (exec_wheel (s := s) (pos := pos))
  have hsum := wheelColor_sum (wheelClamp_le (wheelOperand pos))
  refine ⟨t, _, _, _, hrun, hblock, hbus, hresp, by omega, by omega, by omega, ?_, ?_, ?_, ?_⟩
  · rintro (h | h)
    · rw [wheelOperand, wheelClamp_of_nonpos h]; rfl
    · rw [wheelOperand, wheelClamp_of_ge h]; rfl
  · intro k hk h
    rw [wheelOperand, wheelClamp_of_eq h (by omega)]
    exact wheelColor_redToGreen hk
  · intro k hk h
    rw [wheelOperand, wheelClamp_of_eq (p := 128 + k) (by exact_mod_cast h) (by omega)]
    exact wheelColor_greenToBlue hk
  · intro k hk h
    rw [wheelOperand, wheelClamp_of_eq (p := 256 + k) (by exact_mod_cast h) (by omega)]
    exact wheelColor_blueToRed hk

/-- Settles O42: the zeros are counted among the channels of a segment, in whatever order they stand. -/
theorem wheelIsContinuous : Obligations.WheelIsContinuous := by
  unfold Obligations.WheelIsContinuous
  refine ⟨fun p hp => ⟨wheelColor_sum hp, ?_⟩, fun p hp => wheelColor_succ_near (by omega) (by omega)⟩
  exact ((channels_wheelColor_perm hp).count_eq 0).trans (count_zero_segment (Nat.mod_lt p (by decide)))
end

section
/-! PROOFS. The errors and the bus of `60_exceptions.md`: the ending of a completing command by its cause (R190 to
R194), what a validation error leaves (R196 (a)), and what the block and the strip get of a bus write (R203). -/

namespace Sys2Proof.Machine

variable {s t u u' : State} {i : Instr} {en en' : Ending}

/-! ### R190 to R194: the ending of a command by its cause -/

/-- The error that a command raises on its operands before it writes anything, if one of them is not valid (R191,
R192). -/
def validationError (s : State) : Instr → Option Error
  | .setpx idx _ _ _ _ => if indexInRange (pixelIndex idx) s.ledCount then none else some .outOfRange
  | .setmb br          => if brightValid (brightOperand br) then none else some .invalidArgument
  | .updbr br          => if brightValid (brightOperand br) then none else some .invalidArgument
  | _                  => none

theorem validationError_eq_outOfRange : validationError s i = some .outOfRange ↔
    ∃ idx r g b a, i = .setpx idx r g b a ∧ (pixelIndex idx < 0 ∨ (s.ledCount.toNat : ℤ) ≤ pixelIndex idx) := by
  cases i with
  | setpx idx r g b a => simp [validationError, indexInRange_eq_false]
  | _ => simp [validationError]

theorem validationError_eq_invalidArgument : validationError s i = some .invalidArgument ↔
    ∃ br, (i = .setmb br ∨ i = .updbr br) ∧ (brightOperand br < 0 ∨ 16384 < brightOperand br) := by
  cases i with
  | setmb br => simp [validationError, brightValid_eq_false]
  | updbr br => simp [validationError, brightValid_eq_false]
  | _ => simp [validationError]

theorem validationError_ne_transportError (e : BitVec 24) : validationError s i ≠ some (.transportError e) := by
  cases i with
  | _ => simp [validationError]

/-- How a command completes and with which ending: it raises a validation error and does nothing else, or it writes
the block and then sends its frame and ends as the bus answers, or it writes the block and ends `OK`. -/
inductive Concludes (s : State) (i : Instr) : Ending → State → Prop where
  | raised (e : Error) (he : validationError s i = some e) :
      Concludes s i (.error e) (s.logResponse (responseWord (.error e)))
  | sent (u : State) (r : BusResult) (he : validationError s i = none) (hpub : publishes i = true)
      (hu : Writes s i u) :
      Concludes s i (endingOfBus r) ((sendFrame r u).logResponse (responseWord (endingOfBus r)))
  | ok (u : State) (d : BitVec 24) (he : validationError s i = none) (hpub : publishes i = false)
      (hu : Writes s i u) : Concludes s i (.ok d) (u.logResponse (responseWord (.ok d)))

theorem exec_concludes (h : exec i s = .next t) : ∃ en, Concludes s i en t := by
  cases i with
  | init n dev =>
    obtain ⟨hp, r, -, rfl⟩ := exec_init_eq_next h
    exact ⟨_, .sent _ r rfl rfl (.init n dev hp)⟩
  | setmb br =>
    obtain ⟨hp, ⟨hv, rfl⟩ | ⟨hv, rfl⟩⟩ := execSetmb_eq_next h
    · exact ⟨_, .ok _ 0 (if_pos hv) rfl (.setmb br hp hv)⟩
    · exact ⟨_, .raised _ (if_neg (Bool.eq_false_iff.1 hv))⟩
  | updbr br =>
    obtain ⟨hp, ⟨hv, r, -, rfl⟩ | ⟨hv, rfl⟩⟩ := execUpdbr_eq_next h
    · exact ⟨_, .sent _ r (if_pos hv) rfl (.updbr br hp hv)⟩
    · exact ⟨_, .raised _ (if_neg (Bool.eq_false_iff.1 hv))⟩
  | setpx idx r g b a =>
    obtain ⟨hp, ⟨hi, rfl⟩ | ⟨hi, rfl⟩⟩ := execSetpx_eq_next h
    · exact ⟨_, .ok _ 0 (if_pos hi) rfl (.setpx idx r g b a hp hi)⟩
    · exact ⟨_, .raised _ (if_neg (Bool.eq_false_iff.1 hi))⟩
  | fill r g b a =>
    obtain ⟨hp, x, -, rfl⟩ := execFill_eq_next h
    exact ⟨_, .sent _ x rfl rfl (.fill r g b a hp)⟩
  | setord rp gp bp =>
    obtain ⟨hperm, hp, rfl⟩ := execSetord_eq_next h
    exact ⟨_, .ok _ 0 rfl rfl (.setord rp gp bp hp hperm)⟩
  | update =>
    obtain ⟨hp, r, -, rfl⟩ := execUpdate_eq_next h
    exact ⟨_, .sent _ r rfl rfl (.update hp)⟩
  | wheel pos =>
    obtain rfl := execWheel_eq_next h
    exact ⟨_, .ok _ _ rfl rfl (.wheel pos)⟩

theorem Writes.responded (h : Writes s i u) (en : Ending) : Responded en s (u.logResponse (responseWord en)) :=
  ⟨congrArg (· ++ [responseWord en]) h.responses, h.pending⟩

theorem Concludes.responded (h : Concludes s i en t) : Responded en s t := by
  cases h with
  | raised e => exact ⟨rfl, rfl⟩
  | sent u r _ _ hu => exact ⟨(hu.responded _).responses, hu.pending⟩
  | ok u d _ _ hu => exact hu.responded _

/-- The bus gives no validation error. -/
theorem endingOfBus_eq_error {r : BusResult} {e : Error} :
    endingOfBus r = .error e ↔ ∃ x sent, e = .transportError x ∧ r = .err x sent := by
  cases r with
  | ok => simp [endingOfBus]
  | err x sent => simp [endingOfBus, eq_comm]

/-- An error other than the bus's is raised exactly when the operands call for it. -/
theorem Concludes.eq_error_iff (h : Concludes s i en t) (e : Error) (hne : ∀ x, e ≠ .transportError x) :
    en = .error e ↔ validationError s i = some e := by
  cases h with
  | raised e' he => simp [he]
  | sent u r he => simp [he, endingOfBus_eq_error, hne]
  | ok u d he => simp [he]

/-- TransportError is raised exactly when the one transaction appended has failed. -/
theorem Concludes.eq_transportError_iff (h : Concludes s i en t) {e : BitVec 24} :
    en = .error (.transportError e) ↔
      publishes i = true ∧ ∃ x sent, t.bus = s.bus ++ [x] ∧ x.result = .err e sent := by
  cases h with
  | raised e' he =>
    have hne : e' ≠ .transportError e := by rintro rfl; exact validationError_ne_transportError e he
    simp [hne]
  | sent u r _ hpub hu => simp [endingOfBus_eq_error, hpub, sendFrame, hu.bus]
  | ok u d _ hpub => simp [hpub]

/-! ### R196 (a): the validation errors -/

/-- The ending that a response word reports (R94). -/
def readResponse (w : RespWord) : Ending :=
  if w.extractLsb' 24 8 = 0 then .ok (w.extractLsb' 0 24)
  else if w.extractLsb' 24 8 = 1 then .error .outOfRange
  else if w.extractLsb' 24 8 = 2 then .error .invalidArgument
  else .error (.transportError (w.extractLsb' 0 24))

theorem readResponse_responseWord (en : Ending) : readResponse (responseWord en) = en := by
  rw [readResponse, responseWord_status, responseWord_data]
  match en with
  | .ok d => rfl
  | .error .outOfRange => rfl
  | .error .invalidArgument => rfl
  | .error (.transportError e) => rfl

theorem responseWord_injective : Function.Injective responseWord :=
  Function.LeftInverse.injective readResponse_responseWord

/-- The response tells the ending (R94). -/
theorem Responded.unique (h : Responded en s t) (h' : Responded en' s t) : en = en' := by
  have hlog := h.responses.symm.trans h'.responses
  exact responseWord_injective (List.singleton_inj.1 (List.append_cancel_left hlog))

/-- A command that raises an error other than the bus's has done nothing else. -/
theorem Concludes.same_of_error (h : Concludes s i en t) (e : Error) (hne : ∀ x, e ≠ .transportError x)
    (he : en = .error e) : SameBlock s t ∧ SameBus s t := by
  cases h with
  | raised => exact sameBlock_and_sameBus_logResponse _
  | sent u r =>
    obtain ⟨x, -, hx, -⟩ := endingOfBus_eq_error.1 he
    exact absurd hx (hne x)
  | ok => cases he

/-! ### R203: the block and the result of a bus write -/

/-- The block with other answers of the environment in store. -/
def State.withReplies (rs : List BusReply) (s : State) : State := { s with replies := rs }

/-- No write of a command depends on the answers in store. -/
theorem Writes.eq_withReplies {rs : List BusReply} (h : Writes s i u) (h' : Writes (s.withReplies rs) i u') :
    u' = u.withReplies rs := by
  cases h with
  | init => cases h' with | init => rfl
  | setmb br hp hv =>
    cases h' with
    | setmb => rfl
    | setmbInvalid _ _ hv' => exact absurd (hv.symm.trans hv') nofun
  | setmbInvalid br hp hv =>
    cases h' with
    | setmb _ _ hv' => exact absurd (hv.symm.trans hv') nofun
    | setmbInvalid => rfl
  | updbr br hp hv =>
    cases h' with
    | updbr => rfl
    | updbrInvalid _ _ hv' => exact absurd (hv.symm.trans hv') nofun
  | updbrInvalid br hp hv =>
    cases h' with
    | updbr _ _ hv' => exact absurd (hv.symm.trans hv') nofun
    | updbrInvalid => rfl
  | setpx idx r g b a hp hi =>
    cases h' with
    | setpx => rfl
    | setpxOutOfRange _ _ _ _ _ _ hi' => exact absurd (hi.symm.trans hi') nofun
  | setpxOutOfRange idx r g b a hp hi =>
    cases h' with
    | setpx _ _ _ _ _ _ hi' => exact absurd (hi.symm.trans hi') nofun
    | setpxOutOfRange => rfl
  | fill => cases h' with | fill => rfl
  | setord => cases h' with | setord => rfl
  | update => cases h' with | update => rfl
  | wheel => cases h' with | wheel => rfl

theorem SameBlock.symm (h : SameBlock s t) : SameBlock t s :=
  have ⟨⟨hparams, hphase, hcount, hdevice, hhandle⟩, horder, hbright, hpb⟩ := h
  ⟨⟨hparams.symm, hphase.symm, hcount.symm, hdevice.symm, hhandle.symm⟩, horder.symm, hbright.symm, hpb.symm⟩

theorem SameBlock.trans (h : SameBlock s u) (h' : SameBlock u t) : SameBlock s t :=
  ⟨h.construction.trans h'.construction, h'.order.trans h.order, h'.bright.trans h.bright, h'.pb.trans h.pb⟩

theorem sameBlock_withReplies (rs : List BusReply) : SameBlock s (s.withReplies rs) :=
  ⟨⟨rfl, rfl, rfl, rfl, rfl⟩, rfl, rfl, rfl⟩

/-- Handle and bytes of the transaction at the end do not depend on its result. -/
theorem Ends.bus_handle_bytes {sends : Bool} (h : Ends u sends t) :
    t.bus.map (fun z => (z.handle, z.bytes)) = u.bus.map (fun z => (z.handle, z.bytes)) ++
      if sends then [(u.handle, encodeFrame u.pb)] else [] := by
  cases h with
  | sent r => simp [sendFrame]
  | quiet en => simp

/-! ### U7: what reached the strip -/

/-- After a failed write it can be any leading part of the frame, by the length of that part. -/
theorem received_of_prefix {bytes pre : List Byte} (h : pre <+: bytes) (hd : Handle) (e : BitVec 24) :
    (Transaction.mk hd bytes (.err e pre.length)).received = pre :=
  (List.prefix_iff_eq_take.1 h).symm

theorem received_prefix (x : Transaction) : x.received <+: x.bytes := by
  unfold Transaction.received
  split
  · exact List.prefix_rfl
  · exact List.take_prefix _ _

theorem received_of_ok {x : Transaction} (h : x.result = .ok) : x.received = x.bytes := by
  rw [Transaction.received, h]

/-! ### U8: a write that never returns -/

theorem exec_init_of_never {n dev : BitVec 16} (hp : s.phase = .uninit) (h : s.nextReply = .never) :
    exec (.init n dev) s = .fault .busWriteNeverReturns := by
  change execInit n dev s = _
  unfold execInit
  rw [hp]
  exact doUpdate_of_never h

theorem exec_updbr_of_never {br : BitVec 16} (hp : s.phase = .ready) (hv : brightValid (brightOperand br) = true)
    (h : s.nextReply = .never) : exec (.updbr br) s = .fault .busWriteNeverReturns := by
  change execUpdbr br s = _
  unfold execUpdbr
  rw [whenReady_of_ready hp, if_pos hv]
  exact doUpdate_of_never h

theorem exec_update_of_never (hp : s.phase = .ready) (h : s.nextReply = .never) :
    exec .update s = .fault .busWriteNeverReturns :=
  (whenReady_of_ready hp _).trans (doUpdate_of_never h)

theorem exec_fill_of_never {r g b a : Byte} (hp : s.phase = .ready) (h : s.nextReply = .never) :
    exec (.fill r g b a) s = .fault .busWriteNeverReturns :=
  (whenReady_of_ready hp _).trans (doUpdate_of_never h)

end Sys2Proof.Machine
end

section
open Sys2Proof Sys2Proof.Machine

/-- Settles O29: the same block is written, and neither end puts the result into it. -/
theorem busResultDoesNotReachTheBlock : Obligations.BusResultDoesNotReachTheBlock := by
  unfold Obligations.BusResultDoesNotReachTheBlock
  intro i s t t' rs x y h h'
  obtain ⟨u, hu, hend⟩ := exec_eq_next h
  obtain ⟨u', hu', hend'⟩ := exec_eq_next h'
  obtain rfl := hu.eq_withReplies hu'
  refine ⟨?_, ?_, ?_⟩
  · exact hend.sameBlock.symm.trans ((sameBlock_withReplies _).trans hend'.sameBlock)
  · exact hend.opens.trans hend'.opens.symm
  · exact hend.bus_handle_bytes.trans hend'.bus_handle_bytes.symm

/-- Settles O52: the ending with which the command concludes, by its validation and by the answer of the bus. -/
theorem errorsHaveTheirStatedCauses : Obligations.ErrorsHaveTheirStatedCauses := by
  unfold Obligations.ErrorsHaveTheirStatedCauses
  intro i s t h
  obtain ⟨en, hend⟩ := exec_concludes h
  refine ⟨en, hend.responded, ?_, ?_, fun e => hend.eq_transportError_iff⟩
  · exact (hend.eq_error_iff .outOfRange nofun).trans validationError_eq_outOfRange
  · exact (hend.eq_error_iff .invalidArgument nofun).trans validationError_eq_invalidArgument

/-- Settles O53: the response tells the ending, and with a validation error nothing was written or sent. -/
theorem validationErrorsChangeNothing : Obligations.ValidationErrorsChangeNothing := by
  unfold Obligations.ValidationErrorsChangeNothing
  intro i s t h hresp
  obtain ⟨en, hend⟩ := exec_concludes h
  obtain hresp | hresp := hresp
  · exact hend.same_of_error .outOfRange nofun (hend.responded.unique hresp)
  · exact hend.same_of_error .invalidArgument nofun (hend.responded.unique hresp)

/-- Settles O28: each of the four reaches its update, with the environment's next reply as it was. -/
theorem unansweredWritesNeverFinish : Obligations.UnansweredWritesNeverFinish := by
  unfold Obligations.UnansweredWritesNeverFinish
  intro s h
  exact ⟨fun n dev hp => exec_init_of_never hp h, fun hp => exec_update_of_never hp h,
    fun r g b a hp => exec_fill_of_never hp h, fun br hp hv => exec_updbr_of_never hp hv h⟩

/-- Settles O30: a leading part of the frame is what its own length takes. -/
theorem failedWritesDeliverAPrefix : Obligations.FailedWritesDeliverAPrefix := by
  unfold Obligations.FailedWritesDeliverAPrefix
  exact ⟨received_prefix, fun x => received_of_ok, fun hd bytes pre e h => ⟨_, received_of_prefix h hd e⟩⟩
end

section
/-! PROOFS. The idle block of `70_reset_and_hazards.md`: the step with no command presented (R221). -/

namespace Sys2Proof.Machine

variable {s : State}

theorem fetch_of_pending_eq_nil (hp : s.pending = []) : fetch s = none := by
  rw [fetch, hp]

/-- R221: with no word to fetch, the step is the idle block's. -/
theorem step_of_pending_eq_nil (hp : s.pending = []) : step s = idle s := by
  rw [step, fetch_of_pending_eq_nil hp]

end Sys2Proof.Machine
end

section
open Sys2Proof Sys2Proof.Machine

/-- Settles O10: the step is the idle block's, which answers its own state. -/
theorem noCommandNoEffect : Obligations.NoCommandNoEffect := by
  unfold Obligations.NoCommandNoEffect
  exact fun s hp => step_of_pending_eq_nil hp
end
